-- ==== Sys2Proof/Word.lean ====
section
/-! DEFINITION. The word types of the core: bytes, 16-bit words, 20-bit linear addresses and 32-bit
double words (spec 00_scope.md R9, R11). -/

namespace Sys2Proof

/-- `u8`: a byte of memory, of an instruction or of an 8-bit register view (00_scope.md R11). -/
abbrev Byte := BitVec 8

/-- `u16`: a general register, a segment register, IP, FLAGS, an offset (00_scope.md R9, R11). -/
abbrev Word := BitVec 16

/-- `u20`: a linear address (00_scope.md R9; 20_memory.md R80). -/
abbrev Addr := BitVec 20

/-- `u32`: the pair DX:AX, a far pointer read as one value (00_scope.md R11; 20_memory.md R93). -/
abbrev DWord := BitVec 32

end Sys2Proof
end

