-- ==== Sys2Proof/Machine/Bits.lean ====
section
/-! DEFINITION. The byte-order and sign-extension helpers every layer uses (00_scope.md R11; 20_memory.md R94). -/

namespace Sys2Proof

/-- `hi : lo`, the word with the given halves (00_scope.md R11). -/
def wordOf (lo hi : Byte) : Word := hi ++ lo

/-- `v[7:0]`. -/
def loByte (v : Word) : Byte := v.setWidth 8

/-- `v[15:8]`. -/
def hiByte (v : Word) : Byte := v.extractLsb' 8 8

/-- `sext_16` of a byte: displacements, `sIb`, `rel8`, CBW (00_scope.md R11; 30_encoding.md R142, R150). -/
def sext16 (v : Byte) : Word := v.signExtend 16

/-- `zext_16` of a byte (00_scope.md R11). -/
def zext16 (v : Byte) : Word := v.setWidth 16

end Sys2Proof
end

