-- ==== Sys2Proof/Syntax.lean ====
section
/-! DEFINITION. The instruction set as syntax: registers, operands, and one constructor for each row of
spec/opcode_table.json (30_encoding.md section 6): the rows with operands first, then those without, each in the table's
order. -/

namespace Sys2Proof

/-- The eight 16-bit general registers, in the order of their 3-bit codes (10_state.md R30). -/
inductive Reg16 where
  | ax | cx | dx | bx | sp | bp | si | di
deriving DecidableEq, Repr

/-- The eight 8-bit register views, in the order of their 3-bit codes (10_state.md R30, R31). -/
inductive Reg8 where
  | al | cl | dl | bl | ah | ch | dh | bh
deriving DecidableEq, Repr

/-- The four segment registers, in the order of their 2-bit codes (10_state.md R33). -/
inductive SReg where
  | es | cs | ss | ds
deriving DecidableEq, Repr

/-- The base/index pairs the rm field selects, in the order rm = 0..7 (30_encoding.md R143). -/
inductive AddrBase where
  | bxSi | bxDi | bpSi | bpDi | si | di | bp | bx
deriving DecidableEq, Repr

/-- A memory operand of the mod/reg/rm byte (30_encoding.md R142, R143): the displacement-only form (mod 0, rm 6),
a base alone (mod 0), with an 8-bit displacement (mod 1) or with a 16-bit displacement (mod 2). -/
inductive MemOp where
  | direct (disp : Word)
  | base (b : AddrBase)
  | disp8 (b : AddrBase) (disp : Byte)
  | disp16 (b : AddrBase) (disp : Word)
deriving DecidableEq, Repr

/-- The operand `Eb`: an 8-bit register (mod 3) or a byte of memory (30_encoding.md R141). -/
inductive Rm8 where
  | reg (r : Reg8)
  | mem (m : MemOp)
deriving DecidableEq, Repr

/-- The operand `Ev`/`Ew`: a 16-bit register (mod 3) or a word of memory (30_encoding.md R141). -/
inductive Rm16 where
  | reg (r : Reg16)
  | mem (m : MemOp)
deriving DecidableEq, Repr

/-- The instructions: one constructor for each of the 271 rows of the opcode map (30_encoding.md R165). The prefix rows are
instructions of their own, which the step runs one after the other until it has run one that is no prefix (40_pipeline.md
R205). A constructor named `inv…` is an `(invalid)` row (30_encoding.md R170). A far pointer in the instruction is its
offset word and then its segment word. -/
inductive Instr where
  /-- `0x00/0xFF ADD Eb, Gb` -/
  | addEbGb (e : Rm8) (g : Reg8)
  /-- `0x01/0xFF ADD Ev, Gv` -/
  | addEvGv (e : Rm16) (g : Reg16)
  /-- `0x02/0xFF ADD Gb, Eb` -/
  | addGbEb (g : Reg8) (e : Rm8)
  /-- `0x03/0xFF ADD Gv, Ev` -/
  | addGvEv (g : Reg16) (e : Rm16)
  /-- `0x04/0xFF ADD AL, Ib` -/
  | addAlIb (imm : Byte)
  /-- `0x05/0xFF ADD AX, Iw` -/
  | addAxIw (imm : Word)
  /-- `0x08/0xFF OR Eb, Gb` -/
  | orEbGb (e : Rm8) (g : Reg8)
  /-- `0x09/0xFF OR Ev, Gv` -/
  | orEvGv (e : Rm16) (g : Reg16)
  /-- `0x0A/0xFF OR Gb, Eb` -/
  | orGbEb (g : Reg8) (e : Rm8)
  /-- `0x0B/0xFF OR Gv, Ev` -/
  | orGvEv (g : Reg16) (e : Rm16)
  /-- `0x0C/0xFF OR AL, Ib` -/
  | orAlIb (imm : Byte)
  /-- `0x0D/0xFF OR AX, Iw` -/
  | orAxIw (imm : Word)
  /-- `0x10/0xFF ADC Eb, Gb` -/
  | adcEbGb (e : Rm8) (g : Reg8)
  /-- `0x11/0xFF ADC Ev, Gv` -/
  | adcEvGv (e : Rm16) (g : Reg16)
  /-- `0x12/0xFF ADC Gb, Eb` -/
  | adcGbEb (g : Reg8) (e : Rm8)
  /-- `0x13/0xFF ADC Gv, Ev` -/
  | adcGvEv (g : Reg16) (e : Rm16)
  /-- `0x14/0xFF ADC AL, Ib` -/
  | adcAlIb (imm : Byte)
  /-- `0x15/0xFF ADC AX, Iw` -/
  | adcAxIw (imm : Word)
  /-- `0x18/0xFF SBB Eb, Gb` -/
  | sbbEbGb (e : Rm8) (g : Reg8)
  /-- `0x19/0xFF SBB Ev, Gv` -/
  | sbbEvGv (e : Rm16) (g : Reg16)
  /-- `0x1A/0xFF SBB Gb, Eb` -/
  | sbbGbEb (g : Reg8) (e : Rm8)
  /-- `0x1B/0xFF SBB Gv, Ev` -/
  | sbbGvEv (g : Reg16) (e : Rm16)
  /-- `0x1C/0xFF SBB AL, Ib` -/
  | sbbAlIb (imm : Byte)
  /-- `0x1D/0xFF SBB AX, Iw` -/
  | sbbAxIw (imm : Word)
  /-- `0x20/0xFF AND Eb, Gb` -/
  | andEbGb (e : Rm8) (g : Reg8)
  /-- `0x21/0xFF AND Ev, Gv` -/
  | andEvGv (e : Rm16) (g : Reg16)
  /-- `0x22/0xFF AND Gb, Eb` -/
  | andGbEb (g : Reg8) (e : Rm8)
  /-- `0x23/0xFF AND Gv, Ev` -/
  | andGvEv (g : Reg16) (e : Rm16)
  /-- `0x24/0xFF AND AL, Ib` -/
  | andAlIb (imm : Byte)
  /-- `0x25/0xFF AND AX, Iw` -/
  | andAxIw (imm : Word)
  /-- `0x28/0xFF SUB Eb, Gb` -/
  | subEbGb (e : Rm8) (g : Reg8)
  /-- `0x29/0xFF SUB Ev, Gv` -/
  | subEvGv (e : Rm16) (g : Reg16)
  /-- `0x2A/0xFF SUB Gb, Eb` -/
  | subGbEb (g : Reg8) (e : Rm8)
  /-- `0x2B/0xFF SUB Gv, Ev` -/
  | subGvEv (g : Reg16) (e : Rm16)
  /-- `0x2C/0xFF SUB AL, Ib` -/
  | subAlIb (imm : Byte)
  /-- `0x2D/0xFF SUB AX, Iw` -/
  | subAxIw (imm : Word)
  /-- `0x30/0xFF XOR Eb, Gb` -/
  | xorEbGb (e : Rm8) (g : Reg8)
  /-- `0x31/0xFF XOR Ev, Gv` -/
  | xorEvGv (e : Rm16) (g : Reg16)
  /-- `0x32/0xFF XOR Gb, Eb` -/
  | xorGbEb (g : Reg8) (e : Rm8)
  /-- `0x33/0xFF XOR Gv, Ev` -/
  | xorGvEv (g : Reg16) (e : Rm16)
  /-- `0x34/0xFF XOR AL, Ib` -/
  | xorAlIb (imm : Byte)
  /-- `0x35/0xFF XOR AX, Iw` -/
  | xorAxIw (imm : Word)
  /-- `0x38/0xFF CMP Eb, Gb` -/
  | cmpEbGb (e : Rm8) (g : Reg8)
  /-- `0x39/0xFF CMP Ev, Gv` -/
  | cmpEvGv (e : Rm16) (g : Reg16)
  /-- `0x3A/0xFF CMP Gb, Eb` -/
  | cmpGbEb (g : Reg8) (e : Rm8)
  /-- `0x3B/0xFF CMP Gv, Ev` -/
  | cmpGvEv (g : Reg16) (e : Rm16)
  /-- `0x3C/0xFF CMP AL, Ib` -/
  | cmpAlIb (imm : Byte)
  /-- `0x3D/0xFF CMP AX, Iw` -/
  | cmpAxIw (imm : Word)
  /-- `0x40/0xF8 INC r16` -/
  | incR16 (r : Reg16)
  /-- `0x48/0xF8 DEC r16` -/
  | decR16 (r : Reg16)
  /-- `0x50/0xF8 PUSH r16` -/
  | pushR16 (r : Reg16)
  /-- `0x58/0xF8 POP r16` -/
  | popR16 (r : Reg16)
  /-- `0x60/0xF0 (invalid) 0x60-0x6F (Jcc aliases on an 8086)` -/
  | inv60 (lo : BitVec 4)
  /-- `0x70/0xFF JO rel8` -/
  | jo (rel : Byte)
  /-- `0x71/0xFF JNO rel8` -/
  | jno (rel : Byte)
  /-- `0x72/0xFF JB rel8` -/
  | jb (rel : Byte)
  /-- `0x73/0xFF JNB rel8` -/
  | jnb (rel : Byte)
  /-- `0x74/0xFF JE rel8` -/
  | je (rel : Byte)
  /-- `0x75/0xFF JNE rel8` -/
  | jne (rel : Byte)
  /-- `0x76/0xFF JBE rel8` -/
  | jbe (rel : Byte)
  /-- `0x77/0xFF JA rel8` -/
  | ja (rel : Byte)
  /-- `0x78/0xFF JS rel8` -/
  | js (rel : Byte)
  /-- `0x79/0xFF JNS rel8` -/
  | jns (rel : Byte)
  /-- `0x7A/0xFF JP rel8` -/
  | jp (rel : Byte)
  /-- `0x7B/0xFF JNP rel8` -/
  | jnp (rel : Byte)
  /-- `0x7C/0xFF JL rel8` -/
  | jl (rel : Byte)
  /-- `0x7D/0xFF JGE rel8` -/
  | jge (rel : Byte)
  /-- `0x7E/0xFF JLE rel8` -/
  | jle (rel : Byte)
  /-- `0x7F/0xFF JG rel8` -/
  | jg (rel : Byte)
  /-- `0x8000/0xFF38 ADD Eb, Ib` -/
  | addEbIb (e : Rm8) (imm : Byte)
  /-- `0x8008/0xFF38 OR Eb, Ib` -/
  | orEbIb (e : Rm8) (imm : Byte)
  /-- `0x8010/0xFF38 ADC Eb, Ib` -/
  | adcEbIb (e : Rm8) (imm : Byte)
  /-- `0x8018/0xFF38 SBB Eb, Ib` -/
  | sbbEbIb (e : Rm8) (imm : Byte)
  /-- `0x8020/0xFF38 AND Eb, Ib` -/
  | andEbIb (e : Rm8) (imm : Byte)
  /-- `0x8028/0xFF38 SUB Eb, Ib` -/
  | subEbIb (e : Rm8) (imm : Byte)
  /-- `0x8030/0xFF38 XOR Eb, Ib` -/
  | xorEbIb (e : Rm8) (imm : Byte)
  /-- `0x8038/0xFF38 CMP Eb, Ib` -/
  | cmpEbIb (e : Rm8) (imm : Byte)
  /-- `0x8100/0xFF38 ADD Ev, Iw` -/
  | addEvIw (e : Rm16) (imm : Word)
  /-- `0x8108/0xFF38 OR Ev, Iw` -/
  | orEvIw (e : Rm16) (imm : Word)
  /-- `0x8110/0xFF38 ADC Ev, Iw` -/
  | adcEvIw (e : Rm16) (imm : Word)
  /-- `0x8118/0xFF38 SBB Ev, Iw` -/
  | sbbEvIw (e : Rm16) (imm : Word)
  /-- `0x8120/0xFF38 AND Ev, Iw` -/
  | andEvIw (e : Rm16) (imm : Word)
  /-- `0x8128/0xFF38 SUB Ev, Iw` -/
  | subEvIw (e : Rm16) (imm : Word)
  /-- `0x8130/0xFF38 XOR Ev, Iw` -/
  | xorEvIw (e : Rm16) (imm : Word)
  /-- `0x8138/0xFF38 CMP Ev, Iw` -/
  | cmpEvIw (e : Rm16) (imm : Word)
  /-- `0x8300/0xFF38 ADD Ev, sIb` -/
  | addEvSib (e : Rm16) (imm : Byte)
  /-- `0x8308/0xFF38 OR Ev, sIb` -/
  | orEvSib (e : Rm16) (imm : Byte)
  /-- `0x8310/0xFF38 ADC Ev, sIb` -/
  | adcEvSib (e : Rm16) (imm : Byte)
  /-- `0x8318/0xFF38 SBB Ev, sIb` -/
  | sbbEvSib (e : Rm16) (imm : Byte)
  /-- `0x8320/0xFF38 AND Ev, sIb` -/
  | andEvSib (e : Rm16) (imm : Byte)
  /-- `0x8328/0xFF38 SUB Ev, sIb` -/
  | subEvSib (e : Rm16) (imm : Byte)
  /-- `0x8330/0xFF38 XOR Ev, sIb` -/
  | xorEvSib (e : Rm16) (imm : Byte)
  /-- `0x8338/0xFF38 CMP Ev, sIb` -/
  | cmpEvSib (e : Rm16) (imm : Byte)
  /-- `0x84/0xFF TEST Eb, Gb` -/
  | testEbGb (e : Rm8) (g : Reg8)
  /-- `0x85/0xFF TEST Ev, Gv` -/
  | testEvGv (e : Rm16) (g : Reg16)
  /-- `0x86/0xFF XCHG Eb, Gb` -/
  | xchgEbGb (e : Rm8) (g : Reg8)
  /-- `0x87/0xFF XCHG Ev, Gv` -/
  | xchgEvGv (e : Rm16) (g : Reg16)
  /-- `0x88/0xFF MOV Eb, Gb` -/
  | movEbGb (e : Rm8) (g : Reg8)
  /-- `0x89/0xFF MOV Ev, Gv` -/
  | movEvGv (e : Rm16) (g : Reg16)
  /-- `0x8A/0xFF MOV Gb, Eb` -/
  | movGbEb (g : Reg8) (e : Rm8)
  /-- `0x8B/0xFF MOV Gv, Ev` -/
  | movGvEv (g : Reg16) (e : Rm16)
  /-- `0x8C00/0xFF20 MOV Ew, Sw` -/
  | movEwSw (e : Rm16) (sr : SReg)
  /-- `0x8C20/0xFF20 (invalid) 0x8C with reg 4-7` -/
  | inv8C (r : BitVec 2) (e : Rm16)
  /-- `0x8D/0xFF LEA Gv, M` -/
  | leaGvM (g : Reg16) (m : MemOp)
  /-- `0x8DC0/0xFFC0 (invalid) LEA with mod=3` -/
  | inv8D (g : Reg16) (r : Reg16)
  /-- `0x8E00/0xFF38 MOV ES, Ew` -/
  | movEsEw (e : Rm16)
  /-- `0x8E10/0xFF38 MOV SS, Ew` -/
  | movSsEw (e : Rm16)
  /-- `0x8E18/0xFF38 MOV DS, Ew` -/
  | movDsEw (e : Rm16)
  /-- `0x8E08/0xFF38 (invalid) MOV CS, Ew` -/
  | inv8Ecs (e : Rm16)
  /-- `0x8E20/0xFF20 (invalid) 0x8E with reg 4-7` -/
  | inv8E (r : BitVec 2) (e : Rm16)
  /-- `0x8F00/0xFF38 POP Ev` -/
  | popEv (e : Rm16)
  /-- `0x8F/0xFF (invalid) 0x8F with reg 1-7 (fallback row)` -/
  | inv8F (r : BitVec 3) (e : Rm16)
  /-- `0x90/0xF8 XCHG AX, r16 (r16 = CX..DI; 0x90 is NOP)` -/
  | xchgAxR16 (r : Reg16)
  /-- `0x9A/0xFF CALL Ap (ptr16:16)` -/
  | callAp (off : Word) (sg : Word)
  /-- `0xA0/0xFF MOV AL, Ob` -/
  | movAlOb (off : Word)
  /-- `0xA1/0xFF MOV AX, Ov` -/
  | movAxOv (off : Word)
  /-- `0xA2/0xFF MOV Ob, AL` -/
  | movObAl (off : Word)
  /-- `0xA3/0xFF MOV Ov, AX` -/
  | movOvAx (off : Word)
  /-- `0xA8/0xFF TEST AL, Ib` -/
  | testAlIb (imm : Byte)
  /-- `0xA9/0xFF TEST AX, Iw` -/
  | testAxIw (imm : Word)
  /-- `0xB0/0xF8 MOV r8, Ib` -/
  | movR8Ib (r : Reg8) (imm : Byte)
  /-- `0xB8/0xF8 MOV r16, Iw` -/
  | movR16Iw (r : Reg16) (imm : Word)
  /-- `0xC2/0xFF RET Iw` -/
  | retIw (imm : Word)
  /-- `0xC4/0xFF LES Gv, Mp` -/
  | lesGvMp (g : Reg16) (m : MemOp)
  /-- `0xC4C0/0xFFC0 (invalid) LES with mod=3` -/
  | invC4 (g : Reg16) (r : Reg16)
  /-- `0xC5/0xFF LDS Gv, Mp` -/
  | ldsGvMp (g : Reg16) (m : MemOp)
  /-- `0xC5C0/0xFFC0 (invalid) LDS with mod=3` -/
  | invC5 (g : Reg16) (r : Reg16)
  /-- `0xC600/0xFF38 MOV Eb, Ib` -/
  | movEbIb (e : Rm8) (imm : Byte)
  /-- `0xC6/0xFF (invalid) 0xC6 with reg 1-7 (fallback row)` -/
  | invC6 (r : BitVec 3) (e : Rm8)
  /-- `0xC700/0xFF38 MOV Ev, Iw` -/
  | movEvIw (e : Rm16) (imm : Word)
  /-- `0xC7/0xFF (invalid) 0xC7 with reg 1-7 (fallback row)` -/
  | invC7 (r : BitVec 3) (e : Rm16)
  /-- `0xCA/0xFF RETF Iw` -/
  | retfIw (imm : Word)
  /-- `0xCD/0xFF INT Ib` -/
  | intIb (n : Byte)
  /-- `0xD000/0xFF38 ROL Eb, 1` -/
  | rolEb1 (e : Rm8)
  /-- `0xD008/0xFF38 ROR Eb, 1` -/
  | rorEb1 (e : Rm8)
  /-- `0xD010/0xFF38 RCL Eb, 1` -/
  | rclEb1 (e : Rm8)
  /-- `0xD018/0xFF38 RCR Eb, 1` -/
  | rcrEb1 (e : Rm8)
  /-- `0xD020/0xFF38 SHL Eb, 1` -/
  | shlEb1 (e : Rm8)
  /-- `0xD028/0xFF38 SHR Eb, 1` -/
  | shrEb1 (e : Rm8)
  /-- `0xD030/0xFF38 (invalid) 0xD0 /6 (SETMO/SETMOC on an 8086)` -/
  | invD0r6 (e : Rm8)
  /-- `0xD038/0xFF38 SAR Eb, 1` -/
  | sarEb1 (e : Rm8)
  /-- `0xD100/0xFF38 ROL Ev, 1` -/
  | rolEv1 (e : Rm16)
  /-- `0xD108/0xFF38 ROR Ev, 1` -/
  | rorEv1 (e : Rm16)
  /-- `0xD110/0xFF38 RCL Ev, 1` -/
  | rclEv1 (e : Rm16)
  /-- `0xD118/0xFF38 RCR Ev, 1` -/
  | rcrEv1 (e : Rm16)
  /-- `0xD120/0xFF38 SHL Ev, 1` -/
  | shlEv1 (e : Rm16)
  /-- `0xD128/0xFF38 SHR Ev, 1` -/
  | shrEv1 (e : Rm16)
  /-- `0xD130/0xFF38 (invalid) 0xD1 /6 (SETMO/SETMOC on an 8086)` -/
  | invD1r6 (e : Rm16)
  /-- `0xD138/0xFF38 SAR Ev, 1` -/
  | sarEv1 (e : Rm16)
  /-- `0xD200/0xFF38 ROL Eb, CL` -/
  | rolEbCl (e : Rm8)
  /-- `0xD208/0xFF38 ROR Eb, CL` -/
  | rorEbCl (e : Rm8)
  /-- `0xD210/0xFF38 RCL Eb, CL` -/
  | rclEbCl (e : Rm8)
  /-- `0xD218/0xFF38 RCR Eb, CL` -/
  | rcrEbCl (e : Rm8)
  /-- `0xD220/0xFF38 SHL Eb, CL` -/
  | shlEbCl (e : Rm8)
  /-- `0xD228/0xFF38 SHR Eb, CL` -/
  | shrEbCl (e : Rm8)
  /-- `0xD230/0xFF38 (invalid) 0xD2 /6 (SETMO/SETMOC on an 8086)` -/
  | invD2r6 (e : Rm8)
  /-- `0xD238/0xFF38 SAR Eb, CL` -/
  | sarEbCl (e : Rm8)
  /-- `0xD300/0xFF38 ROL Ev, CL` -/
  | rolEvCl (e : Rm16)
  /-- `0xD308/0xFF38 ROR Ev, CL` -/
  | rorEvCl (e : Rm16)
  /-- `0xD310/0xFF38 RCL Ev, CL` -/
  | rclEvCl (e : Rm16)
  /-- `0xD318/0xFF38 RCR Ev, CL` -/
  | rcrEvCl (e : Rm16)
  /-- `0xD320/0xFF38 SHL Ev, CL` -/
  | shlEvCl (e : Rm16)
  /-- `0xD328/0xFF38 SHR Ev, CL` -/
  | shrEvCl (e : Rm16)
  /-- `0xD330/0xFF38 (invalid) 0xD3 /6 (SETMO/SETMOC on an 8086)` -/
  | invD3r6 (e : Rm16)
  /-- `0xD338/0xFF38 SAR Ev, CL` -/
  | sarEvCl (e : Rm16)
  /-- `0xD4/0xFF AAM Ib` -/
  | aam (base : Byte)
  /-- `0xD5/0xFF AAD Ib` -/
  | aad (base : Byte)
  /-- `0xD8/0xF8 ESC n, Ew` -/
  | esc (n : BitVec 3) (r : BitVec 3) (e : Rm16)
  /-- `0xE0/0xFF LOOPNE rel8` -/
  | loopne (rel : Byte)
  /-- `0xE1/0xFF LOOPE rel8` -/
  | loope (rel : Byte)
  /-- `0xE2/0xFF LOOP rel8` -/
  | loop (rel : Byte)
  /-- `0xE3/0xFF JCXZ rel8` -/
  | jcxz (rel : Byte)
  /-- `0xE4/0xFF IN AL, Ib` -/
  | inAlIb (port : Byte)
  /-- `0xE5/0xFF IN AX, Ib` -/
  | inAxIb (port : Byte)
  /-- `0xE6/0xFF OUT Ib, AL` -/
  | outIbAl (port : Byte)
  /-- `0xE7/0xFF OUT Ib, AX` -/
  | outIbAx (port : Byte)
  /-- `0xE8/0xFF CALL rel16` -/
  | callRel16 (rel : Word)
  /-- `0xE9/0xFF JMP rel16` -/
  | jmpRel16 (rel : Word)
  /-- `0xEA/0xFF JMP Ap (ptr16:16)` -/
  | jmpAp (off : Word) (sg : Word)
  /-- `0xEB/0xFF JMP rel8` -/
  | jmpRel8 (rel : Byte)
  /-- `0xF600/0xFF38 TEST Eb, Ib` -/
  | testEbIb (e : Rm8) (imm : Byte)
  /-- `0xF608/0xFF38 (invalid) 0xF6 /1 (TEST alias on an 8086)` -/
  | invF6r1 (e : Rm8)
  /-- `0xF610/0xFF38 NOT Eb` -/
  | notEb (e : Rm8)
  /-- `0xF618/0xFF38 NEG Eb` -/
  | negEb (e : Rm8)
  /-- `0xF620/0xFF38 MUL Eb` -/
  | mulEb (e : Rm8)
  /-- `0xF628/0xFF38 IMUL Eb` -/
  | imulEb (e : Rm8)
  /-- `0xF630/0xFF38 DIV Eb` -/
  | divEb (e : Rm8)
  /-- `0xF638/0xFF38 IDIV Eb` -/
  | idivEb (e : Rm8)
  /-- `0xF700/0xFF38 TEST Ev, Iw` -/
  | testEvIw (e : Rm16) (imm : Word)
  /-- `0xF708/0xFF38 (invalid) 0xF7 /1 (TEST alias on an 8086)` -/
  | invF7r1 (e : Rm16)
  /-- `0xF710/0xFF38 NOT Ev` -/
  | notEv (e : Rm16)
  /-- `0xF718/0xFF38 NEG Ev` -/
  | negEv (e : Rm16)
  /-- `0xF720/0xFF38 MUL Ev` -/
  | mulEv (e : Rm16)
  /-- `0xF728/0xFF38 IMUL Ev` -/
  | imulEv (e : Rm16)
  /-- `0xF730/0xFF38 DIV Ev` -/
  | divEv (e : Rm16)
  /-- `0xF738/0xFF38 IDIV Ev` -/
  | idivEv (e : Rm16)
  /-- `0xFE00/0xFF38 INC Eb` -/
  | incEb (e : Rm8)
  /-- `0xFE08/0xFF38 DEC Eb` -/
  | decEb (e : Rm8)
  /-- `0xFE/0xFF (invalid) 0xFE with reg 2-7 (fallback row)` -/
  | invFE (r : BitVec 3) (e : Rm8)
  /-- `0xFF00/0xFF38 INC Ev` -/
  | incEv (e : Rm16)
  /-- `0xFF08/0xFF38 DEC Ev` -/
  | decEv (e : Rm16)
  /-- `0xFF10/0xFF38 CALL Ev` -/
  | callEv (e : Rm16)
  /-- `0xFF18/0xFF38 CALL Mp` -/
  | callMp (m : MemOp)
  /-- `0xFF20/0xFF38 JMP Ev` -/
  | jmpEv (e : Rm16)
  /-- `0xFF28/0xFF38 JMP Mp` -/
  | jmpMp (m : MemOp)
  /-- `0xFF30/0xFF38 PUSH Ev` -/
  | pushEv (e : Rm16)
  /-- `0xFFD8/0xFFF8 (invalid) CALL far with mod=3` -/
  | invFFr3 (r : Reg16)
  /-- `0xFFE8/0xFFF8 (invalid) JMP far with mod=3` -/
  | invFFr5 (r : Reg16)
  /-- `0xFF38/0xFF38 (invalid) 0xFF /7 (PUSH alias on an 8086)` -/
  | invFFr7 (e : Rm16)
  /-- `0x06/0xFF PUSH ES` -/
  | pushEs
  /-- `0x07/0xFF POP ES` -/
  | popEs
  /-- `0x0E/0xFF PUSH CS` -/
  | pushCs
  /-- `0x16/0xFF PUSH SS` -/
  | pushSs
  /-- `0x17/0xFF POP SS` -/
  | popSs
  /-- `0x1E/0xFF PUSH DS` -/
  | pushDs
  /-- `0x1F/0xFF POP DS` -/
  | popDs
  /-- `0x0F/0xFF (invalid) POP CS on an 8086` -/
  | inv0F
  /-- `0x26/0xFF ES: segment override prefix` -/
  | segEs
  /-- `0x2E/0xFF CS: segment override prefix` -/
  | segCs
  /-- `0x36/0xFF SS: segment override prefix` -/
  | segSs
  /-- `0x3E/0xFF DS: segment override prefix` -/
  | segDs
  /-- `0x27/0xFF DAA` -/
  | daa
  /-- `0x2F/0xFF DAS` -/
  | das
  /-- `0x37/0xFF AAA` -/
  | aaa
  /-- `0x3F/0xFF AAS` -/
  | aas
  /-- `0x82/0xFF (invalid) 0x82 (alias of 0x80 on an 8086)` -/
  | inv82
  /-- `0x90/0xFF NOP (XCHG AX, AX)` -/
  | nop
  /-- `0x98/0xFF CBW` -/
  | cbw
  /-- `0x99/0xFF CWD` -/
  | cwd
  /-- `0x9B/0xFF WAIT` -/
  | wait
  /-- `0x9C/0xFF PUSHF` -/
  | pushf
  /-- `0x9D/0xFF POPF` -/
  | popf
  /-- `0x9E/0xFF SAHF` -/
  | sahf
  /-- `0x9F/0xFF LAHF` -/
  | lahf
  /-- `0xA4/0xFF MOVSB` -/
  | movsb
  /-- `0xA5/0xFF MOVSW` -/
  | movsw
  /-- `0xA6/0xFF CMPSB` -/
  | cmpsb
  /-- `0xA7/0xFF CMPSW` -/
  | cmpsw
  /-- `0xAA/0xFF STOSB` -/
  | stosb
  /-- `0xAB/0xFF STOSW` -/
  | stosw
  /-- `0xAC/0xFF LODSB` -/
  | lodsb
  /-- `0xAD/0xFF LODSW` -/
  | lodsw
  /-- `0xAE/0xFF SCASB` -/
  | scasb
  /-- `0xAF/0xFF SCASW` -/
  | scasw
  /-- `0xC0/0xFF (invalid) 0xC0 (alias of 0xC2 on an 8086)` -/
  | invC0
  /-- `0xC1/0xFF (invalid) 0xC1 (alias of 0xC3 on an 8086)` -/
  | invC1
  /-- `0xC8/0xFF (invalid) 0xC8 (alias of 0xCA on an 8086)` -/
  | invC8
  /-- `0xC9/0xFF (invalid) 0xC9 (alias of 0xCB on an 8086)` -/
  | invC9
  /-- `0xD6/0xFF (invalid) 0xD6 (SALC on an 8086)` -/
  | invD6
  /-- `0xF1/0xFF (invalid) 0xF1 (alias of LOCK on an 8086)` -/
  | invF1
  /-- `0xC3/0xFF RET` -/
  | ret
  /-- `0xCB/0xFF RETF` -/
  | retf
  /-- `0xCC/0xFF INT3` -/
  | int3
  /-- `0xCE/0xFF INTO` -/
  | into
  /-- `0xCF/0xFF IRET` -/
  | iret
  /-- `0xD7/0xFF XLAT` -/
  | xlat
  /-- `0xEC/0xFF IN AL, DX` -/
  | inAlDx
  /-- `0xED/0xFF IN AX, DX` -/
  | inAxDx
  /-- `0xEE/0xFF OUT DX, AL` -/
  | outDxAl
  /-- `0xEF/0xFF OUT DX, AX` -/
  | outDxAx
  /-- `0xF0/0xFF LOCK prefix` -/
  | lock
  /-- `0xF2/0xFF REPNE repeat prefix (continue while ZF=0)` -/
  | repne
  /-- `0xF3/0xFF REP repeat prefix (REPE: continue while ZF=1)` -/
  | rep
  /-- `0xF4/0xFF HLT` -/
  | hlt
  /-- `0xF5/0xFF CMC` -/
  | cmc
  /-- `0xF8/0xFF CLC` -/
  | clc
  /-- `0xF9/0xFF STC` -/
  | stc
  /-- `0xFA/0xFF CLI` -/
  | cli
  /-- `0xFB/0xFF STI` -/
  | sti
  /-- `0xFC/0xFF CLD` -/
  | cld
  /-- `0xFD/0xFF STD` -/
  | std
deriving DecidableEq, Repr

end Sys2Proof
end

