-- ==== Sys2Proof/WellFormed.lean ====
section
/-! DEFINITION. Which terms of the syntax the encoding can express: a base alone with BP is the displacement-only form
(30_encoding.md R142), 0x90 is NOP and no exchange (R134), and the fallback rows take the reg codes their opcode does not map
(R165, R170). -/

namespace Sys2Proof

/-- `mod = 0, rm = 6` is the displacement-only form, so there is no `[BP]` without a displacement (30_encoding.md R142). -/
def MemOp.wf : MemOp → Bool
  | .direct _ => true
  | .base b => b != .bp
  | .disp8 _ _ => true
  | .disp16 _ _ => true

/-- A register operand is always expressible; a memory operand as `MemOp.wf` says. -/
def Rm8.wf : Rm8 → Bool
  | .reg _ => true
  | .mem m => m.wf

/-- As `Rm8.wf`, for 16-bit operands. -/
def Rm16.wf : Rm16 → Bool
  | .reg _ => true
  | .mem m => m.wf

/-- The instructions that some bytes encode. -/
def Instr.wf : Instr → Bool
  | .addEbGb e _ => e.wf
  | .addEvGv e _ => e.wf
  | .addGbEb _ e => e.wf
  | .addGvEv _ e => e.wf
  | .addAlIb _ => true
  | .addAxIw _ => true
  | .orEbGb e _ => e.wf
  | .orEvGv e _ => e.wf
  | .orGbEb _ e => e.wf
  | .orGvEv _ e => e.wf
  | .orAlIb _ => true
  | .orAxIw _ => true
  | .adcEbGb e _ => e.wf
  | .adcEvGv e _ => e.wf
  | .adcGbEb _ e => e.wf
  | .adcGvEv _ e => e.wf
  | .adcAlIb _ => true
  | .adcAxIw _ => true
  | .sbbEbGb e _ => e.wf
  | .sbbEvGv e _ => e.wf
  | .sbbGbEb _ e => e.wf
  | .sbbGvEv _ e => e.wf
  | .sbbAlIb _ => true
  | .sbbAxIw _ => true
  | .andEbGb e _ => e.wf
  | .andEvGv e _ => e.wf
  | .andGbEb _ e => e.wf
  | .andGvEv _ e => e.wf
  | .andAlIb _ => true
  | .andAxIw _ => true
  | .subEbGb e _ => e.wf
  | .subEvGv e _ => e.wf
  | .subGbEb _ e => e.wf
  | .subGvEv _ e => e.wf
  | .subAlIb _ => true
  | .subAxIw _ => true
  | .xorEbGb e _ => e.wf
  | .xorEvGv e _ => e.wf
  | .xorGbEb _ e => e.wf
  | .xorGvEv _ e => e.wf
  | .xorAlIb _ => true
  | .xorAxIw _ => true
  | .cmpEbGb e _ => e.wf
  | .cmpEvGv e _ => e.wf
  | .cmpGbEb _ e => e.wf
  | .cmpGvEv _ e => e.wf
  | .cmpAlIb _ => true
  | .cmpAxIw _ => true
  | .incR16 _ => true
  | .decR16 _ => true
  | .pushR16 _ => true
  | .popR16 _ => true
  | .inv60 _ => true
  | .jo _ => true
  | .jno _ => true
  | .jb _ => true
  | .jnb _ => true
  | .je _ => true
  | .jne _ => true
  | .jbe _ => true
  | .ja _ => true
  | .js _ => true
  | .jns _ => true
  | .jp _ => true
  | .jnp _ => true
  | .jl _ => true
  | .jge _ => true
  | .jle _ => true
  | .jg _ => true
  | .addEbIb e _ => e.wf
  | .orEbIb e _ => e.wf
  | .adcEbIb e _ => e.wf
  | .sbbEbIb e _ => e.wf
  | .andEbIb e _ => e.wf
  | .subEbIb e _ => e.wf
  | .xorEbIb e _ => e.wf
  | .cmpEbIb e _ => e.wf
  | .addEvIw e _ => e.wf
  | .orEvIw e _ => e.wf
  | .adcEvIw e _ => e.wf
  | .sbbEvIw e _ => e.wf
  | .andEvIw e _ => e.wf
  | .subEvIw e _ => e.wf
  | .xorEvIw e _ => e.wf
  | .cmpEvIw e _ => e.wf
  | .addEvSib e _ => e.wf
  | .orEvSib e _ => e.wf
  | .adcEvSib e _ => e.wf
  | .sbbEvSib e _ => e.wf
  | .andEvSib e _ => e.wf
  | .subEvSib e _ => e.wf
  | .xorEvSib e _ => e.wf
  | .cmpEvSib e _ => e.wf
  | .testEbGb e _ => e.wf
  | .testEvGv e _ => e.wf
  | .xchgEbGb e _ => e.wf
  | .xchgEvGv e _ => e.wf
  | .movEbGb e _ => e.wf
  | .movEvGv e _ => e.wf
  | .movGbEb _ e => e.wf
  | .movGvEv _ e => e.wf
  | .movEwSw e _ => e.wf
  | .inv8C _ e => e.wf
  | .leaGvM _ m => m.wf
  | .inv8D _ _ => true
  | .movEsEw e => e.wf
  | .movSsEw e => e.wf
  | .movDsEw e => e.wf
  | .inv8Ecs e => e.wf
  | .inv8E _ e => e.wf
  | .popEv e => e.wf
  | .inv8F r e => e.wf && r != 0
  | .xchgAxR16 r => r != .ax
  | .callAp _ _ => true
  | .movAlOb _ => true
  | .movAxOv _ => true
  | .movObAl _ => true
  | .movOvAx _ => true
  | .testAlIb _ => true
  | .testAxIw _ => true
  | .movR8Ib _ _ => true
  | .movR16Iw _ _ => true
  | .retIw _ => true
  | .lesGvMp _ m => m.wf
  | .invC4 _ _ => true
  | .ldsGvMp _ m => m.wf
  | .invC5 _ _ => true
  | .movEbIb e _ => e.wf
  | .invC6 r e => e.wf && r != 0
  | .movEvIw e _ => e.wf
  | .invC7 r e => e.wf && r != 0
  | .retfIw _ => true
  | .intIb _ => true
  | .rolEb1 e => e.wf
  | .rorEb1 e => e.wf
  | .rclEb1 e => e.wf
  | .rcrEb1 e => e.wf
  | .shlEb1 e => e.wf
  | .shrEb1 e => e.wf
  | .invD0r6 e => e.wf
  | .sarEb1 e => e.wf
  | .rolEv1 e => e.wf
  | .rorEv1 e => e.wf
  | .rclEv1 e => e.wf
  | .rcrEv1 e => e.wf
  | .shlEv1 e => e.wf
  | .shrEv1 e => e.wf
  | .invD1r6 e => e.wf
  | .sarEv1 e => e.wf
  | .rolEbCl e => e.wf
  | .rorEbCl e => e.wf
  | .rclEbCl e => e.wf
  | .rcrEbCl e => e.wf
  | .shlEbCl e => e.wf
  | .shrEbCl e => e.wf
  | .invD2r6 e => e.wf
  | .sarEbCl e => e.wf
  | .rolEvCl e => e.wf
  | .rorEvCl e => e.wf
  | .rclEvCl e => e.wf
  | .rcrEvCl e => e.wf
  | .shlEvCl e => e.wf
  | .shrEvCl e => e.wf
  | .invD3r6 e => e.wf
  | .sarEvCl e => e.wf
  | .aam _ => true
  | .aad _ => true
  | .esc _ _ e => e.wf
  | .loopne _ => true
  | .loope _ => true
  | .loop _ => true
  | .jcxz _ => true
  | .inAlIb _ => true
  | .inAxIb _ => true
  | .outIbAl _ => true
  | .outIbAx _ => true
  | .callRel16 _ => true
  | .jmpRel16 _ => true
  | .jmpAp _ _ => true
  | .jmpRel8 _ => true
  | .testEbIb e _ => e.wf
  | .invF6r1 e => e.wf
  | .notEb e => e.wf
  | .negEb e => e.wf
  | .mulEb e => e.wf
  | .imulEb e => e.wf
  | .divEb e => e.wf
  | .idivEb e => e.wf
  | .testEvIw e _ => e.wf
  | .invF7r1 e => e.wf
  | .notEv e => e.wf
  | .negEv e => e.wf
  | .mulEv e => e.wf
  | .imulEv e => e.wf
  | .divEv e => e.wf
  | .idivEv e => e.wf
  | .incEb e => e.wf
  | .decEb e => e.wf
  | .invFE r e => e.wf && decide (2 ≤ r.toNat)
  | .incEv e => e.wf
  | .decEv e => e.wf
  | .callEv e => e.wf
  | .callMp m => m.wf
  | .jmpEv e => e.wf
  | .jmpMp m => m.wf
  | .pushEv e => e.wf
  | .invFFr3 _ => true
  | .invFFr5 _ => true
  | .invFFr7 e => e.wf
  | .pushEs => true
  | .popEs => true
  | .pushCs => true
  | .pushSs => true
  | .popSs => true
  | .pushDs => true
  | .popDs => true
  | .inv0F => true
  | .segEs => true
  | .segCs => true
  | .segSs => true
  | .segDs => true
  | .daa => true
  | .das => true
  | .aaa => true
  | .aas => true
  | .inv82 => true
  | .nop => true
  | .cbw => true
  | .cwd => true
  | .wait => true
  | .pushf => true
  | .popf => true
  | .sahf => true
  | .lahf => true
  | .movsb => true
  | .movsw => true
  | .cmpsb => true
  | .cmpsw => true
  | .stosb => true
  | .stosw => true
  | .lodsb => true
  | .lodsw => true
  | .scasb => true
  | .scasw => true
  | .invC0 => true
  | .invC1 => true
  | .invC8 => true
  | .invC9 => true
  | .invD6 => true
  | .invF1 => true
  | .ret => true
  | .retf => true
  | .int3 => true
  | .into => true
  | .iret => true
  | .xlat => true
  | .inAlDx => true
  | .inAxDx => true
  | .outDxAl => true
  | .outDxAx => true
  | .lock => true
  | .repne => true
  | .rep => true
  | .hlt => true
  | .cmc => true
  | .clc => true
  | .stc => true
  | .cli => true
  | .sti => true
  | .cld => true
  | .std => true

end Sys2Proof
end

