-- ==== Sys2Proof/Decode.lean ====
section
/-! DEFINITION. The encoding of 30_encoding.md: register codes, the mod/reg/rm byte, the lengths of an instruction's fields,
the decoder (total on bytes, refusing by name), and after it the encoder, written from the same opcode map. The step fetches
an instruction field by field with the same length functions (Machine/Fetch.lean). -/

namespace Sys2Proof

/-! ### Register codes (10_state.md R30, R31, R33) -/

/-- The 16-bit register with a 3-bit code (10_state.md R30). -/
def Reg16.ofCode (c : BitVec 3) : Reg16 :=
  match c.toNat with
  | 0 => .ax
  | 1 => .cx
  | 2 => .dx
  | 3 => .bx
  | 4 => .sp
  | 5 => .bp
  | 6 => .si
  | _ => .di

/-- The 8-bit register with a 3-bit code (10_state.md R30, column 3). -/
def Reg8.ofCode (c : BitVec 3) : Reg8 :=
  match c.toNat with
  | 0 => .al
  | 1 => .cl
  | 2 => .dl
  | 3 => .bl
  | 4 => .ah
  | 5 => .ch
  | 6 => .dh
  | _ => .bh

/-- The segment register with a 2-bit code (10_state.md R33). -/
def SReg.ofCode (c : BitVec 2) : SReg :=
  match c.toNat with
  | 0 => .es
  | 1 => .cs
  | 2 => .ss
  | _ => .ds

/-- The base/index pair an rm field names (30_encoding.md R143). -/
def AddrBase.ofCode (c : BitVec 3) : AddrBase :=
  match c.toNat with
  | 0 => .bxSi
  | 1 => .bxDi
  | 2 => .bpSi
  | 3 => .bpDi
  | 4 => .si
  | 5 => .di
  | 6 => .bp
  | _ => .bx

/-! ### The fields of an instruction (30_encoding.md R130, R132, R140-R142, R150) -/

/-- The fields of one instruction as fetched: the opcode, the mod/reg/rm byte, the displacement (an 8-bit one in the low
byte), the immediate (an 8-bit one in the low byte; the offset word of a far pointer) and the segment word of a far
pointer. A field the instruction does not have is 0. -/
structure Body where
  op : Byte
  modrm : Byte
  disp : Word
  imm : Word
  seg : Word
deriving DecidableEq, Repr

/-- `mod = b[7:6]` (30_encoding.md R140). -/
def modField (modrm : Byte) : BitVec 2 := modrm.extractLsb' 6 2

/-- `reg = b[5:3]` (30_encoding.md R140). -/
def regField (modrm : Byte) : BitVec 3 := modrm.extractLsb' 3 3

/-- `rm = b[2:0]` (30_encoding.md R140). -/
def rmField (modrm : Byte) : BitVec 3 := modrm.extractLsb' 0 3

/-- The rows of section 6 whose opcode is followed by a mod/reg/rm byte (formats `op+modrm`, `grp+modrm`,
`grp+modrm+imm`). -/
def hasModrm (op : Byte) : Bool :=
  let n := op.toNat
  (n < 0x40 && n % 8 < 4) || n == 0x80 || n == 0x81 || (0x83 ≤ n && n ≤ 0x8F) ||
    (0xC4 ≤ n && n ≤ 0xC7) || (0xD0 ≤ n && n ≤ 0xD3) || (0xD8 ≤ n && n ≤ 0xDF) ||
    n == 0xF6 || n == 0xF7 || n == 0xFE || n == 0xFF

/-- The number of displacement bytes after a mod/reg/rm byte (30_encoding.md R142). -/
def dispLen (modrm : Byte) : Nat :=
  match (modField modrm).toNat with
  | 0 => if rmField modrm = 6 then 2 else 0
  | 1 => 1
  | 2 => 2
  | _ => 0

/-- The number of immediate bytes (30_encoding.md R132): the formats `op+ib`, `op+rel8`, `op+r+ib` have 1, `op+iw`, `op+rel16`,
`op+moffs`, `op+r+iw` 2, `op+ptr` 4; the group opcodes as R132 lists them, by the reg field for 0xC6, 0xC7, 0xF6, 0xF7 (an invalid
member fetches no immediate, 40_pipeline.md R216). -/
def immLen (op modrm : Byte) : Nat :=
  let n := op.toNat
  if n < 0x40 then
    if n % 8 = 4 then 1 else if n % 8 = 5 then 2 else 0
  else if 0x70 ≤ n ∧ n ≤ 0x7F then 1
  else if n = 0x80 ∨ n = 0x83 then 1
  else if n = 0x81 then 2
  else if n = 0x9A ∨ n = 0xEA then 4
  else if 0xA0 ≤ n ∧ n ≤ 0xA3 then 2
  else if n = 0xA8 then 1
  else if n = 0xA9 then 2
  else if 0xB0 ≤ n ∧ n ≤ 0xB7 then 1
  else if 0xB8 ≤ n ∧ n ≤ 0xBF then 2
  else if n = 0xC2 ∨ n = 0xCA then 2
  else if n = 0xC6 ∨ n = 0xF6 then if regField modrm = 0 then 1 else 0
  else if n = 0xC7 ∨ n = 0xF7 then if regField modrm = 0 then 2 else 0
  else if n = 0xCD ∨ n = 0xD4 ∨ n = 0xD5 then 1
  else if 0xE0 ≤ n ∧ n ≤ 0xE7 then 1
  else if n = 0xE8 ∨ n = 0xE9 then 2
  else if n = 0xEB then 1
  else 0

/-- The memory operand of `mod` in 0..2 (30_encoding.md R142, R143). -/
def MemOp.ofFields (md : BitVec 2) (rm : BitVec 3) (disp : Word) : MemOp :=
  match md.toNat with
  | 0 => if rm = 6 then .direct disp else .base (AddrBase.ofCode rm)
  | 1 => .disp8 (AddrBase.ofCode rm) (loByte disp)
  | _ => .disp16 (AddrBase.ofCode rm) disp

namespace Body

/-- The reg field of the instruction's mod/reg/rm byte. -/
def reg (b : Body) : BitVec 3 := regField b.modrm

/-- The mod field of the instruction's mod/reg/rm byte. -/
def md (b : Body) : BitVec 2 := modField b.modrm

/-- The 16-bit register an rm field with `mod = 3` names. -/
def rmReg16 (b : Body) : Reg16 := Reg16.ofCode (rmField b.modrm)

/-- `M`, `Mp`: the memory operand (30_encoding.md R143, R148). -/
def mem (b : Body) : MemOp := MemOp.ofFields b.md (rmField b.modrm) b.disp

/-- `Eb` (30_encoding.md R141, R143). -/
def e8 (b : Body) : Rm8 := if b.md = 3 then .reg (Reg8.ofCode (rmField b.modrm)) else .mem b.mem

/-- `Ev` (30_encoding.md R141, R143). -/
def e16 (b : Body) : Rm16 := if b.md = 3 then .reg b.rmReg16 else .mem b.mem

/-- `Gb` (30_encoding.md R146). -/
def g8 (b : Body) : Reg8 := Reg8.ofCode b.reg

/-- `Gv` (30_encoding.md R146). -/
def g16 (b : Body) : Reg16 := Reg16.ofCode b.reg

/-- `Sw`: the segment register with code reg, for reg 0-3 (30_encoding.md R146). -/
def sreg (b : Body) : SReg := SReg.ofCode (b.reg.setWidth 2)

/-- The 16-bit register with code opcode[2:0] (30_encoding.md R134). -/
def lowReg16 (b : Body) : Reg16 := Reg16.ofCode (b.op.setWidth 3)

/-- The 8-bit register with code opcode[2:0] (30_encoding.md R134). -/
def lowReg8 (b : Body) : Reg8 := Reg8.ofCode (b.op.setWidth 3)

/-- `Ib`, `sIb`, `rel8` (30_encoding.md R150). -/
def ib (b : Body) : Byte := loByte b.imm

end Body

/-! ### The opcode map (30_encoding.md section 6), one function for each high nibble of the opcode -/

/-- The members of 0x80 by the reg field (30_encoding.md R160, R165). -/
def group1Eb (b : Body) : Instr :=
  match b.reg.toNat with
  | 0 => .addEbIb b.e8 b.ib
  | 1 => .orEbIb b.e8 b.ib
  | 2 => .adcEbIb b.e8 b.ib
  | 3 => .sbbEbIb b.e8 b.ib
  | 4 => .andEbIb b.e8 b.ib
  | 5 => .subEbIb b.e8 b.ib
  | 6 => .xorEbIb b.e8 b.ib
  | _ => .cmpEbIb b.e8 b.ib

/-- The members of 0x81 by the reg field (30_encoding.md R160, R165). -/
def group1EvIw (b : Body) : Instr :=
  match b.reg.toNat with
  | 0 => .addEvIw b.e16 b.imm
  | 1 => .orEvIw b.e16 b.imm
  | 2 => .adcEvIw b.e16 b.imm
  | 3 => .sbbEvIw b.e16 b.imm
  | 4 => .andEvIw b.e16 b.imm
  | 5 => .subEvIw b.e16 b.imm
  | 6 => .xorEvIw b.e16 b.imm
  | _ => .cmpEvIw b.e16 b.imm

/-- The members of 0x83 by the reg field (30_encoding.md R160, R165). -/
def group1EvSib (b : Body) : Instr :=
  match b.reg.toNat with
  | 0 => .addEvSib b.e16 b.ib
  | 1 => .orEvSib b.e16 b.ib
  | 2 => .adcEvSib b.e16 b.ib
  | 3 => .sbbEvSib b.e16 b.ib
  | 4 => .andEvSib b.e16 b.ib
  | 5 => .subEvSib b.e16 b.ib
  | 6 => .xorEvSib b.e16 b.ib
  | _ => .cmpEvSib b.e16 b.ib

/-- The members of 0x8E by the reg field (30_encoding.md R160, R165). -/
def movSreg (b : Body) : Instr :=
  match b.reg.toNat with
  | 0 => .movEsEw b.e16
  | 1 => .inv8Ecs b.e16
  | 2 => .movSsEw b.e16
  | 3 => .movDsEw b.e16
  | _ => .inv8E (b.reg.setWidth 2) b.e16

/-- The members of 0x8F by the reg field (30_encoding.md R160, R165). -/
def popGroup (b : Body) : Instr :=
  match b.reg.toNat with
  | 0 => .popEv b.e16
  | _ => .inv8F b.reg b.e16

/-- The members of 0xC6 by the reg field (30_encoding.md R160, R165). -/
def movGroupEb (b : Body) : Instr :=
  match b.reg.toNat with
  | 0 => .movEbIb b.e8 b.ib
  | _ => .invC6 b.reg b.e8

/-- The members of 0xC7 by the reg field (30_encoding.md R160, R165). -/
def movGroupEv (b : Body) : Instr :=
  match b.reg.toNat with
  | 0 => .movEvIw b.e16 b.imm
  | _ => .invC7 b.reg b.e16

/-- The members of 0xD0 by the reg field (30_encoding.md R160, R165). -/
def group2Eb1 (b : Body) : Instr :=
  match b.reg.toNat with
  | 0 => .rolEb1 b.e8
  | 1 => .rorEb1 b.e8
  | 2 => .rclEb1 b.e8
  | 3 => .rcrEb1 b.e8
  | 4 => .shlEb1 b.e8
  | 5 => .shrEb1 b.e8
  | 6 => .invD0r6 b.e8
  | _ => .sarEb1 b.e8

/-- The members of 0xD1 by the reg field (30_encoding.md R160, R165). -/
def group2Ev1 (b : Body) : Instr :=
  match b.reg.toNat with
  | 0 => .rolEv1 b.e16
  | 1 => .rorEv1 b.e16
  | 2 => .rclEv1 b.e16
  | 3 => .rcrEv1 b.e16
  | 4 => .shlEv1 b.e16
  | 5 => .shrEv1 b.e16
  | 6 => .invD1r6 b.e16
  | _ => .sarEv1 b.e16

/-- The members of 0xD2 by the reg field (30_encoding.md R160, R165). -/
def group2EbCl (b : Body) : Instr :=
  match b.reg.toNat with
  | 0 => .rolEbCl b.e8
  | 1 => .rorEbCl b.e8
  | 2 => .rclEbCl b.e8
  | 3 => .rcrEbCl b.e8
  | 4 => .shlEbCl b.e8
  | 5 => .shrEbCl b.e8
  | 6 => .invD2r6 b.e8
  | _ => .sarEbCl b.e8

/-- The members of 0xD3 by the reg field (30_encoding.md R160, R165). -/
def group2EvCl (b : Body) : Instr :=
  match b.reg.toNat with
  | 0 => .rolEvCl b.e16
  | 1 => .rorEvCl b.e16
  | 2 => .rclEvCl b.e16
  | 3 => .rcrEvCl b.e16
  | 4 => .shlEvCl b.e16
  | 5 => .shrEvCl b.e16
  | 6 => .invD3r6 b.e16
  | _ => .sarEvCl b.e16

/-- The members of 0xF6 by the reg field (30_encoding.md R160, R165). -/
def group3Eb (b : Body) : Instr :=
  match b.reg.toNat with
  | 0 => .testEbIb b.e8 b.ib
  | 1 => .invF6r1 b.e8
  | 2 => .notEb b.e8
  | 3 => .negEb b.e8
  | 4 => .mulEb b.e8
  | 5 => .imulEb b.e8
  | 6 => .divEb b.e8
  | _ => .idivEb b.e8

/-- The members of 0xF7 by the reg field (30_encoding.md R160, R165). -/
def group3Ev (b : Body) : Instr :=
  match b.reg.toNat with
  | 0 => .testEvIw b.e16 b.imm
  | 1 => .invF7r1 b.e16
  | 2 => .notEv b.e16
  | 3 => .negEv b.e16
  | 4 => .mulEv b.e16
  | 5 => .imulEv b.e16
  | 6 => .divEv b.e16
  | _ => .idivEv b.e16

/-- The members of 0xFE by the reg field (30_encoding.md R160, R165). -/
def group4 (b : Body) : Instr :=
  match b.reg.toNat with
  | 0 => .incEb b.e8
  | 1 => .decEb b.e8
  | _ => .invFE b.reg b.e8

/-- The members of 0xFF by the reg field (30_encoding.md R160, R165). -/
def group5 (b : Body) : Instr :=
  match b.reg.toNat with
  | 0 => .incEv b.e16
  | 1 => .decEv b.e16
  | 2 => .callEv b.e16
  | 3 => if b.md = 3 then .invFFr3 b.rmReg16 else .callMp b.mem
  | 4 => .jmpEv b.e16
  | 5 => if b.md = 3 then .invFFr5 b.rmReg16 else .jmpMp b.mem
  | 6 => .pushEv b.e16
  | _ => .invFFr7 b.e16

/-- Opcodes 0x00 to 0x0F, by the low nibble. -/
def opcodes0 (b : Body) : Nat → Instr
  | 0 => .addEbGb b.e8 b.g8
  | 1 => .addEvGv b.e16 b.g16
  | 2 => .addGbEb b.g8 b.e8
  | 3 => .addGvEv b.g16 b.e16
  | 4 => .addAlIb b.ib
  | 5 => .addAxIw b.imm
  | 6 => .pushEs
  | 7 => .popEs
  | 8 => .orEbGb b.e8 b.g8
  | 9 => .orEvGv b.e16 b.g16
  | 10 => .orGbEb b.g8 b.e8
  | 11 => .orGvEv b.g16 b.e16
  | 12 => .orAlIb b.ib
  | 13 => .orAxIw b.imm
  | 14 => .pushCs
  | _ => .inv0F

/-- Opcodes 0x10 to 0x1F, by the low nibble. -/
def opcodes1 (b : Body) : Nat → Instr
  | 0 => .adcEbGb b.e8 b.g8
  | 1 => .adcEvGv b.e16 b.g16
  | 2 => .adcGbEb b.g8 b.e8
  | 3 => .adcGvEv b.g16 b.e16
  | 4 => .adcAlIb b.ib
  | 5 => .adcAxIw b.imm
  | 6 => .pushSs
  | 7 => .popSs
  | 8 => .sbbEbGb b.e8 b.g8
  | 9 => .sbbEvGv b.e16 b.g16
  | 10 => .sbbGbEb b.g8 b.e8
  | 11 => .sbbGvEv b.g16 b.e16
  | 12 => .sbbAlIb b.ib
  | 13 => .sbbAxIw b.imm
  | 14 => .pushDs
  | _ => .popDs

/-- Opcodes 0x20 to 0x2F, by the low nibble. -/
def opcodes2 (b : Body) : Nat → Instr
  | 0 => .andEbGb b.e8 b.g8
  | 1 => .andEvGv b.e16 b.g16
  | 2 => .andGbEb b.g8 b.e8
  | 3 => .andGvEv b.g16 b.e16
  | 4 => .andAlIb b.ib
  | 5 => .andAxIw b.imm
  | 6 => .segEs
  | 7 => .daa
  | 8 => .subEbGb b.e8 b.g8
  | 9 => .subEvGv b.e16 b.g16
  | 10 => .subGbEb b.g8 b.e8
  | 11 => .subGvEv b.g16 b.e16
  | 12 => .subAlIb b.ib
  | 13 => .subAxIw b.imm
  | 14 => .segCs
  | _ => .das

/-- Opcodes 0x30 to 0x3F, by the low nibble. -/
def opcodes3 (b : Body) : Nat → Instr
  | 0 => .xorEbGb b.e8 b.g8
  | 1 => .xorEvGv b.e16 b.g16
  | 2 => .xorGbEb b.g8 b.e8
  | 3 => .xorGvEv b.g16 b.e16
  | 4 => .xorAlIb b.ib
  | 5 => .xorAxIw b.imm
  | 6 => .segSs
  | 7 => .aaa
  | 8 => .cmpEbGb b.e8 b.g8
  | 9 => .cmpEvGv b.e16 b.g16
  | 10 => .cmpGbEb b.g8 b.e8
  | 11 => .cmpGvEv b.g16 b.e16
  | 12 => .cmpAlIb b.ib
  | 13 => .cmpAxIw b.imm
  | 14 => .segDs
  | _ => .aas

/-- Opcodes 0x40 to 0x4F, by the low nibble. -/
def opcodes4 (b : Body) : Nat → Instr
  | 0 => .incR16 b.lowReg16
  | 1 => .incR16 b.lowReg16
  | 2 => .incR16 b.lowReg16
  | 3 => .incR16 b.lowReg16
  | 4 => .incR16 b.lowReg16
  | 5 => .incR16 b.lowReg16
  | 6 => .incR16 b.lowReg16
  | 7 => .incR16 b.lowReg16
  | 8 => .decR16 b.lowReg16
  | 9 => .decR16 b.lowReg16
  | 10 => .decR16 b.lowReg16
  | 11 => .decR16 b.lowReg16
  | 12 => .decR16 b.lowReg16
  | 13 => .decR16 b.lowReg16
  | 14 => .decR16 b.lowReg16
  | _ => .decR16 b.lowReg16

/-- Opcodes 0x50 to 0x5F, by the low nibble. -/
def opcodes5 (b : Body) : Nat → Instr
  | 0 => .pushR16 b.lowReg16
  | 1 => .pushR16 b.lowReg16
  | 2 => .pushR16 b.lowReg16
  | 3 => .pushR16 b.lowReg16
  | 4 => .pushR16 b.lowReg16
  | 5 => .pushR16 b.lowReg16
  | 6 => .pushR16 b.lowReg16
  | 7 => .pushR16 b.lowReg16
  | 8 => .popR16 b.lowReg16
  | 9 => .popR16 b.lowReg16
  | 10 => .popR16 b.lowReg16
  | 11 => .popR16 b.lowReg16
  | 12 => .popR16 b.lowReg16
  | 13 => .popR16 b.lowReg16
  | 14 => .popR16 b.lowReg16
  | _ => .popR16 b.lowReg16

/-- Opcodes 0x60 to 0x6F, by the low nibble. -/
def opcodes6 (b : Body) : Nat → Instr
  | _ => .inv60 (b.op.setWidth 4)

/-- Opcodes 0x70 to 0x7F, by the low nibble. -/
def opcodes7 (b : Body) : Nat → Instr
  | 0 => .jo b.ib
  | 1 => .jno b.ib
  | 2 => .jb b.ib
  | 3 => .jnb b.ib
  | 4 => .je b.ib
  | 5 => .jne b.ib
  | 6 => .jbe b.ib
  | 7 => .ja b.ib
  | 8 => .js b.ib
  | 9 => .jns b.ib
  | 10 => .jp b.ib
  | 11 => .jnp b.ib
  | 12 => .jl b.ib
  | 13 => .jge b.ib
  | 14 => .jle b.ib
  | _ => .jg b.ib

/-- Opcodes 0x80 to 0x8F, by the low nibble. -/
def opcodes8 (b : Body) : Nat → Instr
  | 0 => group1Eb b
  | 1 => group1EvIw b
  | 2 => .inv82
  | 3 => group1EvSib b
  | 4 => .testEbGb b.e8 b.g8
  | 5 => .testEvGv b.e16 b.g16
  | 6 => .xchgEbGb b.e8 b.g8
  | 7 => .xchgEvGv b.e16 b.g16
  | 8 => .movEbGb b.e8 b.g8
  | 9 => .movEvGv b.e16 b.g16
  | 10 => .movGbEb b.g8 b.e8
  | 11 => .movGvEv b.g16 b.e16
  | 12 => if b.reg.toNat < 4 then .movEwSw b.e16 b.sreg else .inv8C (b.reg.setWidth 2) b.e16
  | 13 => if b.md = 3 then .inv8D b.g16 b.rmReg16 else .leaGvM b.g16 b.mem
  | 14 => movSreg b
  | _ => popGroup b

/-- Opcodes 0x90 to 0x9F, by the low nibble. -/
def opcodes9 (b : Body) : Nat → Instr
  | 0 => .nop
  | 1 => .xchgAxR16 b.lowReg16
  | 2 => .xchgAxR16 b.lowReg16
  | 3 => .xchgAxR16 b.lowReg16
  | 4 => .xchgAxR16 b.lowReg16
  | 5 => .xchgAxR16 b.lowReg16
  | 6 => .xchgAxR16 b.lowReg16
  | 7 => .xchgAxR16 b.lowReg16
  | 8 => .cbw
  | 9 => .cwd
  | 10 => .callAp b.imm b.seg
  | 11 => .wait
  | 12 => .pushf
  | 13 => .popf
  | 14 => .sahf
  | _ => .lahf

/-- Opcodes 0xA0 to 0xAF, by the low nibble. -/
def opcodesA (b : Body) : Nat → Instr
  | 0 => .movAlOb b.imm
  | 1 => .movAxOv b.imm
  | 2 => .movObAl b.imm
  | 3 => .movOvAx b.imm
  | 4 => .movsb
  | 5 => .movsw
  | 6 => .cmpsb
  | 7 => .cmpsw
  | 8 => .testAlIb b.ib
  | 9 => .testAxIw b.imm
  | 10 => .stosb
  | 11 => .stosw
  | 12 => .lodsb
  | 13 => .lodsw
  | 14 => .scasb
  | _ => .scasw

/-- Opcodes 0xB0 to 0xBF, by the low nibble. -/
def opcodesB (b : Body) : Nat → Instr
  | 0 => .movR8Ib b.lowReg8 b.ib
  | 1 => .movR8Ib b.lowReg8 b.ib
  | 2 => .movR8Ib b.lowReg8 b.ib
  | 3 => .movR8Ib b.lowReg8 b.ib
  | 4 => .movR8Ib b.lowReg8 b.ib
  | 5 => .movR8Ib b.lowReg8 b.ib
  | 6 => .movR8Ib b.lowReg8 b.ib
  | 7 => .movR8Ib b.lowReg8 b.ib
  | 8 => .movR16Iw b.lowReg16 b.imm
  | 9 => .movR16Iw b.lowReg16 b.imm
  | 10 => .movR16Iw b.lowReg16 b.imm
  | 11 => .movR16Iw b.lowReg16 b.imm
  | 12 => .movR16Iw b.lowReg16 b.imm
  | 13 => .movR16Iw b.lowReg16 b.imm
  | 14 => .movR16Iw b.lowReg16 b.imm
  | _ => .movR16Iw b.lowReg16 b.imm

/-- Opcodes 0xC0 to 0xCF, by the low nibble. -/
def opcodesC (b : Body) : Nat → Instr
  | 0 => .invC0
  | 1 => .invC1
  | 2 => .retIw b.imm
  | 3 => .ret
  | 4 => if b.md = 3 then .invC4 b.g16 b.rmReg16 else .lesGvMp b.g16 b.mem
  | 5 => if b.md = 3 then .invC5 b.g16 b.rmReg16 else .ldsGvMp b.g16 b.mem
  | 6 => movGroupEb b
  | 7 => movGroupEv b
  | 8 => .invC8
  | 9 => .invC9
  | 10 => .retfIw b.imm
  | 11 => .retf
  | 12 => .int3
  | 13 => .intIb b.ib
  | 14 => .into
  | _ => .iret

/-- Opcodes 0xD0 to 0xDF, by the low nibble. -/
def opcodesD (b : Body) : Nat → Instr
  | 0 => group2Eb1 b
  | 1 => group2Ev1 b
  | 2 => group2EbCl b
  | 3 => group2EvCl b
  | 4 => .aam b.ib
  | 5 => .aad b.ib
  | 6 => .invD6
  | 7 => .xlat
  | 8 => .esc (b.op.setWidth 3) b.reg b.e16
  | 9 => .esc (b.op.setWidth 3) b.reg b.e16
  | 10 => .esc (b.op.setWidth 3) b.reg b.e16
  | 11 => .esc (b.op.setWidth 3) b.reg b.e16
  | 12 => .esc (b.op.setWidth 3) b.reg b.e16
  | 13 => .esc (b.op.setWidth 3) b.reg b.e16
  | 14 => .esc (b.op.setWidth 3) b.reg b.e16
  | _ => .esc (b.op.setWidth 3) b.reg b.e16

/-- Opcodes 0xE0 to 0xEF, by the low nibble. -/
def opcodesE (b : Body) : Nat → Instr
  | 0 => .loopne b.ib
  | 1 => .loope b.ib
  | 2 => .loop b.ib
  | 3 => .jcxz b.ib
  | 4 => .inAlIb b.ib
  | 5 => .inAxIb b.ib
  | 6 => .outIbAl b.ib
  | 7 => .outIbAx b.ib
  | 8 => .callRel16 b.imm
  | 9 => .jmpRel16 b.imm
  | 10 => .jmpAp b.imm b.seg
  | 11 => .jmpRel8 b.ib
  | 12 => .inAlDx
  | 13 => .inAxDx
  | 14 => .outDxAl
  | _ => .outDxAx

/-- Opcodes 0xF0 to 0xFF, by the low nibble. -/
def opcodesF (b : Body) : Nat → Instr
  | 0 => .lock
  | 1 => .invF1
  | 2 => .repne
  | 3 => .rep
  | 4 => .hlt
  | 5 => .cmc
  | 6 => group3Eb b
  | 7 => group3Ev b
  | 8 => .clc
  | 9 => .stc
  | 10 => .cli
  | 11 => .sti
  | 12 => .cld
  | 13 => .std
  | 14 => group4 b
  | _ => group5 b

/-- The instruction the fields spell: the row of the opcode map (30_encoding.md R165) that the opcode byte and, for the rows that
look at it, the mod/reg/rm byte select. -/
def Body.instr (b : Body) : Instr :=
  let lo := b.op.toNat % 16
  match b.op.toNat / 16 with
  | 0 => opcodes0 b lo
  | 1 => opcodes1 b lo
  | 2 => opcodes2 b lo
  | 3 => opcodes3 b lo
  | 4 => opcodes4 b lo
  | 5 => opcodes5 b lo
  | 6 => opcodes6 b lo
  | 7 => opcodes7 b lo
  | 8 => opcodes8 b lo
  | 9 => opcodes9 b lo
  | 10 => opcodesA b lo
  | 11 => opcodesB b lo
  | 12 => opcodesC b lo
  | 13 => opcodesD b lo
  | 14 => opcodesE b lo
  | _ => opcodesF b lo

/-! ### The decoder -/

/-- Why the decoder refuses: the bytes end inside the instruction. Every complete byte sequence has a row (30_encoding.md R165),
so there is no other reason. -/
inductive DecodeError where
  | truncated
deriving DecidableEq, Repr

/-- A little-endian field of 0, 1 or 2 bytes (30_encoding.md R150), and the bytes after it. -/
def takeField : Nat → List Byte → Except DecodeError (Word × List Byte)
  | 0, bytes => .ok (0, bytes)
  | 1, lo :: bytes => .ok (zext16 lo, bytes)
  | _, lo :: hi :: bytes => .ok (wordOf lo hi, bytes)
  | _, _ => .error .truncated

/-- The length of the immediate's first field: 0, 1 or 2 bytes; a far pointer is two 2-byte fields. -/
def immLen1 (op modrm : Byte) : Nat := min (immLen op modrm) 2

/-- The length of the immediate's second field: 2 for a far pointer, else 0. -/
def immLen2 (op modrm : Byte) : Nat := immLen op modrm - 2

/-- The mod/reg/rm byte, when the opcode has one (30_encoding.md R130). -/
def takeModrm (op : Byte) (bytes : List Byte) : Except DecodeError (Byte × List Byte) :=
  if hasModrm op then
    match bytes with
    | modrm :: rest => .ok (modrm, rest)
    | [] => .error .truncated
  else .ok (0, bytes)

/-- The number of displacement bytes of an instruction: those of its mod/reg/rm byte, if it has one. -/
def dispLenOf (op modrm : Byte) : Nat := if hasModrm op then dispLen modrm else 0

/-- The fields at the front of a byte sequence, and the bytes after them (30_encoding.md R132, without prefixes: a prefix byte
is an instruction of its own here). -/
def parse : List Byte → Except DecodeError (Body × List Byte)
  | [] => .error .truncated
  | op :: bytes =>
    match takeModrm op bytes with
    | .error err => .error err
    | .ok (modrm, bytes) =>
      match takeField (dispLenOf op modrm) bytes with
      | .error err => .error err
      | .ok (disp, bytes) =>
        match takeField (immLen1 op modrm) bytes with
        | .error err => .error err
        | .ok (imm, bytes) =>
          match takeField (immLen2 op modrm) bytes with
          | .error err => .error err
          | .ok (seg, bytes) => .ok ({ op, modrm, disp, imm, seg }, bytes)

/-- The instruction at the front of a byte sequence and the bytes after it, or the reason there is none. -/
def decode (bytes : List Byte) : Except DecodeError (Instr × List Byte) :=
  match parse bytes with
  | .error err => .error err
  | .ok (b, rest) => .ok (b.instr, rest)

/-! ### The encoder -/

/-- The 3-bit code of a 16-bit register (10_state.md R30). -/
def Reg16.code : Reg16 → BitVec 3
  | .ax => 0
  | .cx => 1
  | .dx => 2
  | .bx => 3
  | .sp => 4
  | .bp => 5
  | .si => 6
  | .di => 7

/-- The 3-bit code of an 8-bit register (10_state.md R30). -/
def Reg8.code : Reg8 → BitVec 3
  | .al => 0
  | .cl => 1
  | .dl => 2
  | .bl => 3
  | .ah => 4
  | .ch => 5
  | .dh => 6
  | .bh => 7

/-- The 2-bit code of a segment register (10_state.md R33). -/
def SReg.code : SReg → BitVec 2
  | .es => 0
  | .cs => 1
  | .ss => 2
  | .ds => 3

/-- The rm code of a base/index pair (30_encoding.md R143). -/
def AddrBase.code : AddrBase → BitVec 3
  | .bxSi => 0
  | .bxDi => 1
  | .bpSi => 2
  | .bpDi => 3
  | .si => 4
  | .di => 5
  | .bp => 6
  | .bx => 7

/-- The mod and rm fields and the displacement that name an operand E. -/
structure RmCode where
  md : BitVec 2
  rm : BitVec 3
  disp : Word
deriving DecidableEq, Repr

/-- The encoding of a memory operand (30_encoding.md R142, R143). -/
def MemOp.code : MemOp → RmCode
  | .direct d => ⟨0, 6, d⟩
  | .base b => ⟨0, b.code, 0⟩
  | .disp8 b d => ⟨1, b.code, zext16 d⟩
  | .disp16 b d => ⟨2, b.code, d⟩

/-- The encoding of an 8-bit operand E (30_encoding.md R141). -/
def Rm8.code : Rm8 → RmCode
  | .reg r => ⟨3, r.code, 0⟩
  | .mem m => m.code

/-- The encoding of a 16-bit operand E (30_encoding.md R141). -/
def Rm16.code : Rm16 → RmCode
  | .reg r => ⟨3, r.code, 0⟩
  | .mem m => m.code

/-- The fields of an instruction without a mod/reg/rm byte. -/
def Body.plain (op : Byte) (imm : Word := 0) (seg : Word := 0) : Body := ⟨op, 0, 0, imm, seg⟩

/-- The fields of an instruction with a mod/reg/rm byte (30_encoding.md R140). -/
def Body.ofRm (op : Byte) (reg : BitVec 3) (e : RmCode) (imm : Word := 0) : Body :=
  ⟨op, e.md ++ reg ++ e.rm, e.disp, imm, 0⟩

/-- The fields that spell an instruction (30_encoding.md R160, R165). -/
def Instr.body : Instr → Body
  | .addEbGb e g => .ofRm 0x00 g.code e.code
  | .addEvGv e g => .ofRm 0x01 g.code e.code
  | .addGbEb g e => .ofRm 0x02 g.code e.code
  | .addGvEv g e => .ofRm 0x03 g.code e.code
  | .addAlIb imm => .plain 0x04 (imm.setWidth 16)
  | .addAxIw imm => .plain 0x05 imm
  | .orEbGb e g => .ofRm 0x08 g.code e.code
  | .orEvGv e g => .ofRm 0x09 g.code e.code
  | .orGbEb g e => .ofRm 0x0A g.code e.code
  | .orGvEv g e => .ofRm 0x0B g.code e.code
  | .orAlIb imm => .plain 0x0C (imm.setWidth 16)
  | .orAxIw imm => .plain 0x0D imm
  | .adcEbGb e g => .ofRm 0x10 g.code e.code
  | .adcEvGv e g => .ofRm 0x11 g.code e.code
  | .adcGbEb g e => .ofRm 0x12 g.code e.code
  | .adcGvEv g e => .ofRm 0x13 g.code e.code
  | .adcAlIb imm => .plain 0x14 (imm.setWidth 16)
  | .adcAxIw imm => .plain 0x15 imm
  | .sbbEbGb e g => .ofRm 0x18 g.code e.code
  | .sbbEvGv e g => .ofRm 0x19 g.code e.code
  | .sbbGbEb g e => .ofRm 0x1A g.code e.code
  | .sbbGvEv g e => .ofRm 0x1B g.code e.code
  | .sbbAlIb imm => .plain 0x1C (imm.setWidth 16)
  | .sbbAxIw imm => .plain 0x1D imm
  | .andEbGb e g => .ofRm 0x20 g.code e.code
  | .andEvGv e g => .ofRm 0x21 g.code e.code
  | .andGbEb g e => .ofRm 0x22 g.code e.code
  | .andGvEv g e => .ofRm 0x23 g.code e.code
  | .andAlIb imm => .plain 0x24 (imm.setWidth 16)
  | .andAxIw imm => .plain 0x25 imm
  | .subEbGb e g => .ofRm 0x28 g.code e.code
  | .subEvGv e g => .ofRm 0x29 g.code e.code
  | .subGbEb g e => .ofRm 0x2A g.code e.code
  | .subGvEv g e => .ofRm 0x2B g.code e.code
  | .subAlIb imm => .plain 0x2C (imm.setWidth 16)
  | .subAxIw imm => .plain 0x2D imm
  | .xorEbGb e g => .ofRm 0x30 g.code e.code
  | .xorEvGv e g => .ofRm 0x31 g.code e.code
  | .xorGbEb g e => .ofRm 0x32 g.code e.code
  | .xorGvEv g e => .ofRm 0x33 g.code e.code
  | .xorAlIb imm => .plain 0x34 (imm.setWidth 16)
  | .xorAxIw imm => .plain 0x35 imm
  | .cmpEbGb e g => .ofRm 0x38 g.code e.code
  | .cmpEvGv e g => .ofRm 0x39 g.code e.code
  | .cmpGbEb g e => .ofRm 0x3A g.code e.code
  | .cmpGvEv g e => .ofRm 0x3B g.code e.code
  | .cmpAlIb imm => .plain 0x3C (imm.setWidth 16)
  | .cmpAxIw imm => .plain 0x3D imm
  | .incR16 r => .plain (0x40 ||| r.code.setWidth 8)
  | .decR16 r => .plain (0x48 ||| r.code.setWidth 8)
  | .pushR16 r => .plain (0x50 ||| r.code.setWidth 8)
  | .popR16 r => .plain (0x58 ||| r.code.setWidth 8)
  | .inv60 lo => .plain (0x60 ||| lo.setWidth 8)
  | .jo rel => .plain 0x70 (rel.setWidth 16)
  | .jno rel => .plain 0x71 (rel.setWidth 16)
  | .jb rel => .plain 0x72 (rel.setWidth 16)
  | .jnb rel => .plain 0x73 (rel.setWidth 16)
  | .je rel => .plain 0x74 (rel.setWidth 16)
  | .jne rel => .plain 0x75 (rel.setWidth 16)
  | .jbe rel => .plain 0x76 (rel.setWidth 16)
  | .ja rel => .plain 0x77 (rel.setWidth 16)
  | .js rel => .plain 0x78 (rel.setWidth 16)
  | .jns rel => .plain 0x79 (rel.setWidth 16)
  | .jp rel => .plain 0x7A (rel.setWidth 16)
  | .jnp rel => .plain 0x7B (rel.setWidth 16)
  | .jl rel => .plain 0x7C (rel.setWidth 16)
  | .jge rel => .plain 0x7D (rel.setWidth 16)
  | .jle rel => .plain 0x7E (rel.setWidth 16)
  | .jg rel => .plain 0x7F (rel.setWidth 16)
  | .addEbIb e imm => .ofRm 0x80 0 e.code (imm.setWidth 16)
  | .orEbIb e imm => .ofRm 0x80 1 e.code (imm.setWidth 16)
  | .adcEbIb e imm => .ofRm 0x80 2 e.code (imm.setWidth 16)
  | .sbbEbIb e imm => .ofRm 0x80 3 e.code (imm.setWidth 16)
  | .andEbIb e imm => .ofRm 0x80 4 e.code (imm.setWidth 16)
  | .subEbIb e imm => .ofRm 0x80 5 e.code (imm.setWidth 16)
  | .xorEbIb e imm => .ofRm 0x80 6 e.code (imm.setWidth 16)
  | .cmpEbIb e imm => .ofRm 0x80 7 e.code (imm.setWidth 16)
  | .addEvIw e imm => .ofRm 0x81 0 e.code imm
  | .orEvIw e imm => .ofRm 0x81 1 e.code imm
  | .adcEvIw e imm => .ofRm 0x81 2 e.code imm
  | .sbbEvIw e imm => .ofRm 0x81 3 e.code imm
  | .andEvIw e imm => .ofRm 0x81 4 e.code imm
  | .subEvIw e imm => .ofRm 0x81 5 e.code imm
  | .xorEvIw e imm => .ofRm 0x81 6 e.code imm
  | .cmpEvIw e imm => .ofRm 0x81 7 e.code imm
  | .addEvSib e imm => .ofRm 0x83 0 e.code (imm.setWidth 16)
  | .orEvSib e imm => .ofRm 0x83 1 e.code (imm.setWidth 16)
  | .adcEvSib e imm => .ofRm 0x83 2 e.code (imm.setWidth 16)
  | .sbbEvSib e imm => .ofRm 0x83 3 e.code (imm.setWidth 16)
  | .andEvSib e imm => .ofRm 0x83 4 e.code (imm.setWidth 16)
  | .subEvSib e imm => .ofRm 0x83 5 e.code (imm.setWidth 16)
  | .xorEvSib e imm => .ofRm 0x83 6 e.code (imm.setWidth 16)
  | .cmpEvSib e imm => .ofRm 0x83 7 e.code (imm.setWidth 16)
  | .testEbGb e g => .ofRm 0x84 g.code e.code
  | .testEvGv e g => .ofRm 0x85 g.code e.code
  | .xchgEbGb e g => .ofRm 0x86 g.code e.code
  | .xchgEvGv e g => .ofRm 0x87 g.code e.code
  | .movEbGb e g => .ofRm 0x88 g.code e.code
  | .movEvGv e g => .ofRm 0x89 g.code e.code
  | .movGbEb g e => .ofRm 0x8A g.code e.code
  | .movGvEv g e => .ofRm 0x8B g.code e.code
  | .movEwSw e sr => .ofRm 0x8C (0#1 ++ sr.code) e.code
  | .inv8C r e => .ofRm 0x8C (1#1 ++ r) e.code
  | .leaGvM g m => .ofRm 0x8D g.code m.code
  | .inv8D g r => .ofRm 0x8D g.code (Rm16.reg r).code
  | .movEsEw e => .ofRm 0x8E 0 e.code
  | .movSsEw e => .ofRm 0x8E 2 e.code
  | .movDsEw e => .ofRm 0x8E 3 e.code
  | .inv8Ecs e => .ofRm 0x8E 1 e.code
  | .inv8E r e => .ofRm 0x8E (1#1 ++ r) e.code
  | .popEv e => .ofRm 0x8F 0 e.code
  | .inv8F r e => .ofRm 0x8F r e.code
  | .xchgAxR16 r => .plain (0x90 ||| r.code.setWidth 8)
  | .callAp off sg => .plain 0x9A off sg
  | .movAlOb off => .plain 0xA0 off
  | .movAxOv off => .plain 0xA1 off
  | .movObAl off => .plain 0xA2 off
  | .movOvAx off => .plain 0xA3 off
  | .testAlIb imm => .plain 0xA8 (imm.setWidth 16)
  | .testAxIw imm => .plain 0xA9 imm
  | .movR8Ib r imm => .plain (0xB0 ||| r.code.setWidth 8) (imm.setWidth 16)
  | .movR16Iw r imm => .plain (0xB8 ||| r.code.setWidth 8) imm
  | .retIw imm => .plain 0xC2 imm
  | .lesGvMp g m => .ofRm 0xC4 g.code m.code
  | .invC4 g r => .ofRm 0xC4 g.code (Rm16.reg r).code
  | .ldsGvMp g m => .ofRm 0xC5 g.code m.code
  | .invC5 g r => .ofRm 0xC5 g.code (Rm16.reg r).code
  | .movEbIb e imm => .ofRm 0xC6 0 e.code (imm.setWidth 16)
  | .invC6 r e => .ofRm 0xC6 r e.code
  | .movEvIw e imm => .ofRm 0xC7 0 e.code imm
  | .invC7 r e => .ofRm 0xC7 r e.code
  | .retfIw imm => .plain 0xCA imm
  | .intIb n => .plain 0xCD (n.setWidth 16)
  | .rolEb1 e => .ofRm 0xD0 0 e.code
  | .rorEb1 e => .ofRm 0xD0 1 e.code
  | .rclEb1 e => .ofRm 0xD0 2 e.code
  | .rcrEb1 e => .ofRm 0xD0 3 e.code
  | .shlEb1 e => .ofRm 0xD0 4 e.code
  | .shrEb1 e => .ofRm 0xD0 5 e.code
  | .invD0r6 e => .ofRm 0xD0 6 e.code
  | .sarEb1 e => .ofRm 0xD0 7 e.code
  | .rolEv1 e => .ofRm 0xD1 0 e.code
  | .rorEv1 e => .ofRm 0xD1 1 e.code
  | .rclEv1 e => .ofRm 0xD1 2 e.code
  | .rcrEv1 e => .ofRm 0xD1 3 e.code
  | .shlEv1 e => .ofRm 0xD1 4 e.code
  | .shrEv1 e => .ofRm 0xD1 5 e.code
  | .invD1r6 e => .ofRm 0xD1 6 e.code
  | .sarEv1 e => .ofRm 0xD1 7 e.code
  | .rolEbCl e => .ofRm 0xD2 0 e.code
  | .rorEbCl e => .ofRm 0xD2 1 e.code
  | .rclEbCl e => .ofRm 0xD2 2 e.code
  | .rcrEbCl e => .ofRm 0xD2 3 e.code
  | .shlEbCl e => .ofRm 0xD2 4 e.code
  | .shrEbCl e => .ofRm 0xD2 5 e.code
  | .invD2r6 e => .ofRm 0xD2 6 e.code
  | .sarEbCl e => .ofRm 0xD2 7 e.code
  | .rolEvCl e => .ofRm 0xD3 0 e.code
  | .rorEvCl e => .ofRm 0xD3 1 e.code
  | .rclEvCl e => .ofRm 0xD3 2 e.code
  | .rcrEvCl e => .ofRm 0xD3 3 e.code
  | .shlEvCl e => .ofRm 0xD3 4 e.code
  | .shrEvCl e => .ofRm 0xD3 5 e.code
  | .invD3r6 e => .ofRm 0xD3 6 e.code
  | .sarEvCl e => .ofRm 0xD3 7 e.code
  | .aam base => .plain 0xD4 (base.setWidth 16)
  | .aad base => .plain 0xD5 (base.setWidth 16)
  | .esc n r e => .ofRm (0xD8 ||| n.setWidth 8) r e.code
  | .loopne rel => .plain 0xE0 (rel.setWidth 16)
  | .loope rel => .plain 0xE1 (rel.setWidth 16)
  | .loop rel => .plain 0xE2 (rel.setWidth 16)
  | .jcxz rel => .plain 0xE3 (rel.setWidth 16)
  | .inAlIb port => .plain 0xE4 (port.setWidth 16)
  | .inAxIb port => .plain 0xE5 (port.setWidth 16)
  | .outIbAl port => .plain 0xE6 (port.setWidth 16)
  | .outIbAx port => .plain 0xE7 (port.setWidth 16)
  | .callRel16 rel => .plain 0xE8 rel
  | .jmpRel16 rel => .plain 0xE9 rel
  | .jmpAp off sg => .plain 0xEA off sg
  | .jmpRel8 rel => .plain 0xEB (rel.setWidth 16)
  | .testEbIb e imm => .ofRm 0xF6 0 e.code (imm.setWidth 16)
  | .invF6r1 e => .ofRm 0xF6 1 e.code
  | .notEb e => .ofRm 0xF6 2 e.code
  | .negEb e => .ofRm 0xF6 3 e.code
  | .mulEb e => .ofRm 0xF6 4 e.code
  | .imulEb e => .ofRm 0xF6 5 e.code
  | .divEb e => .ofRm 0xF6 6 e.code
  | .idivEb e => .ofRm 0xF6 7 e.code
  | .testEvIw e imm => .ofRm 0xF7 0 e.code imm
  | .invF7r1 e => .ofRm 0xF7 1 e.code
  | .notEv e => .ofRm 0xF7 2 e.code
  | .negEv e => .ofRm 0xF7 3 e.code
  | .mulEv e => .ofRm 0xF7 4 e.code
  | .imulEv e => .ofRm 0xF7 5 e.code
  | .divEv e => .ofRm 0xF7 6 e.code
  | .idivEv e => .ofRm 0xF7 7 e.code
  | .incEb e => .ofRm 0xFE 0 e.code
  | .decEb e => .ofRm 0xFE 1 e.code
  | .invFE r e => .ofRm 0xFE r e.code
  | .incEv e => .ofRm 0xFF 0 e.code
  | .decEv e => .ofRm 0xFF 1 e.code
  | .callEv e => .ofRm 0xFF 2 e.code
  | .callMp m => .ofRm 0xFF 3 m.code
  | .jmpEv e => .ofRm 0xFF 4 e.code
  | .jmpMp m => .ofRm 0xFF 5 m.code
  | .pushEv e => .ofRm 0xFF 6 e.code
  | .invFFr3 r => .ofRm 0xFF 3 (Rm16.reg r).code
  | .invFFr5 r => .ofRm 0xFF 5 (Rm16.reg r).code
  | .invFFr7 e => .ofRm 0xFF 7 e.code
  | .pushEs => .plain 0x06
  | .popEs => .plain 0x07
  | .pushCs => .plain 0x0E
  | .pushSs => .plain 0x16
  | .popSs => .plain 0x17
  | .pushDs => .plain 0x1E
  | .popDs => .plain 0x1F
  | .inv0F => .plain 0x0F
  | .segEs => .plain 0x26
  | .segCs => .plain 0x2E
  | .segSs => .plain 0x36
  | .segDs => .plain 0x3E
  | .daa => .plain 0x27
  | .das => .plain 0x2F
  | .aaa => .plain 0x37
  | .aas => .plain 0x3F
  | .inv82 => .plain 0x82
  | .nop => .plain 0x90
  | .cbw => .plain 0x98
  | .cwd => .plain 0x99
  | .wait => .plain 0x9B
  | .pushf => .plain 0x9C
  | .popf => .plain 0x9D
  | .sahf => .plain 0x9E
  | .lahf => .plain 0x9F
  | .movsb => .plain 0xA4
  | .movsw => .plain 0xA5
  | .cmpsb => .plain 0xA6
  | .cmpsw => .plain 0xA7
  | .stosb => .plain 0xAA
  | .stosw => .plain 0xAB
  | .lodsb => .plain 0xAC
  | .lodsw => .plain 0xAD
  | .scasb => .plain 0xAE
  | .scasw => .plain 0xAF
  | .invC0 => .plain 0xC0
  | .invC1 => .plain 0xC1
  | .invC8 => .plain 0xC8
  | .invC9 => .plain 0xC9
  | .invD6 => .plain 0xD6
  | .invF1 => .plain 0xF1
  | .ret => .plain 0xC3
  | .retf => .plain 0xCB
  | .int3 => .plain 0xCC
  | .into => .plain 0xCE
  | .iret => .plain 0xCF
  | .xlat => .plain 0xD7
  | .inAlDx => .plain 0xEC
  | .inAxDx => .plain 0xED
  | .outDxAl => .plain 0xEE
  | .outDxAx => .plain 0xEF
  | .lock => .plain 0xF0
  | .repne => .plain 0xF2
  | .rep => .plain 0xF3
  | .hlt => .plain 0xF4
  | .cmc => .plain 0xF5
  | .clc => .plain 0xF8
  | .stc => .plain 0xF9
  | .cli => .plain 0xFA
  | .sti => .plain 0xFB
  | .cld => .plain 0xFC
  | .std => .plain 0xFD

/-- The bytes of a little-endian field of 0, 1 or 2 bytes (30_encoding.md R150). -/
def fieldBytes : Nat → Word → List Byte
  | 0, _ => []
  | 1, v => [loByte v]
  | _, v => [loByte v, hiByte v]

/-- The bytes of an instruction's fields, in the order of 30_encoding.md R130. -/
def Body.bytes (b : Body) : List Byte :=
  b.op :: (if hasModrm b.op then [b.modrm] else []) ++ fieldBytes (dispLenOf b.op b.modrm) b.disp ++
    fieldBytes (immLen1 b.op b.modrm) b.imm ++ fieldBytes (immLen2 b.op b.modrm) b.seg

/-- The bytes that encode an instruction (meant for a well-formed one). -/
def encode (i : Instr) : List Byte := i.body.bytes

/-! ### Words numbered as the opcode table numbers them -/

/-- The low `n` bytes of a number, least significant first. -/
def bytesOfNat : Nat → Nat → List Byte
  | 0, _ => []
  | n + 1, w => BitVec.ofNat 8 w :: bytesOfNat n (w / 256)

/-- The opcodes that the table gives rows of two bytes (opcode and mod/reg/rm byte). -/
def isTwoByteRow (op : Nat) : Bool :=
  op == 0x80 || op == 0x81 || op == 0x83 || op == 0x8C || op == 0x8D || op == 0x8E || op == 0x8F ||
    op == 0xC4 || op == 0xC5 || op == 0xC6 || op == 0xC7 || (0xD0 ≤ op && op ≤ 0xD3) ||
    op == 0xF6 || op == 0xF7 || op == 0xFE || op == 0xFF

/-- The 8 bytes, first at the front, of an instruction whose bits are `w`, numbered as spec/opcode_table.json numbers them: a
two-byte row has its opcode byte in bits 15..8 and its mod/reg/rm byte in bits 7..0 (30_encoding.md R165), any other row has its
first byte in bits 7..0 and each later byte above it (log entry 15). -/
def tableBytes (nbits w : Nat) : List Byte :=
  let w := w % 2 ^ nbits
  if nbits = 16 ∧ isTwoByteRow (w / 256) then
    [BitVec.ofNat 8 (w / 256), BitVec.ofNat 8 w, 0, 0, 0, 0, 0, 0]
  else bytesOfNat 8 w

/-- What the decoder reads from an instruction whose bits are `w`, numbered as spec/opcode_table.json numbers them; the bits
above `nbits` are 0. -/
def decodeTableWord (nbits w : Nat) : Option Instr :=
  match decode (tableBytes nbits w) with
  | .ok (i, _) => some i
  | .error _ => none

end Sys2Proof
end

