-- ==== Sys2Proof/Machine/Flags.lean ====
section
/-! DEFINITION. The FLAGS register's bit model and every flag computation of the ALU, as functions of plain words: parity, result
flags, addition, subtraction and one step of each shift and rotate (10_state.md R40-R42; 42_arithmetic.md R300-R303;
44_logic_shift.md R400-R408). -/

namespace Sys2Proof.Machine

/-- The nine defined flags (10_state.md R41). -/
inductive Flag where
  | CF | PF | AF | ZF | SF | TF | IF | DF | OF
deriving DecidableEq, Repr

/-- The bit of FLAGS that holds a flag (10_state.md R41). -/
def Flag.bit : Flag → Nat
  | .CF => 0
  | .PF => 2
  | .AF => 4
  | .ZF => 6
  | .SF => 7
  | .TF => 8
  | .IF => 9
  | .DF => 10
  | .OF => 11

/-- `setValue16`: keeps the nine defined bits and forces the reserved ones (10_state.md R40). -/
def maskFlags (v : Word) : Word := (v &&& 0x0FD5) ||| 0xF002

/-- A flag's getter (10_state.md R42). -/
def getFlag (f : Flag) (v : Word) : Bool := v.getLsbD f.bit

/-- A single-flag write changes that bit only (10_state.md R40). -/
def putFlag (f : Flag) (b : Bool) (v : Word) : Word :=
  if b then v ||| (1#16 <<< f.bit) else v &&& ~~~(1#16 <<< f.bit)

/-- `parity8`: even parity, by the XOR-fold and the constant 0x6996 (42_arithmetic.md R300). -/
def parity8 (v : Byte) : Bool :=
  let x := (v ^^^ (v >>> 4)) &&& 0x0F
  ((0x6996#16 >>> x.toNat) &&& 1) == 0

/-- `setSZP`: SF, ZF, PF of a result (42_arithmetic.md R301). -/
def putSZP {w : Nat} (r : BitVec w) (v : Word) : Word :=
  putFlag .PF (parity8 (r.setWidth 8)) (putFlag .ZF (r == 0) (putFlag .SF r.msb v))

/-- The result of `add_w` (42_arithmetic.md R302). -/
def addResult {w : Nat} (a b : BitVec w) (c : Bool) : BitVec w :=
  BitVec.ofNat w (a.toNat + b.toNat + c.toNat)

/-- The flags of `add_w`: CF from the wide result, AF the carry out of bit 3, OF when the operands share a sign and the result
does not, then SF, ZF, PF (42_arithmetic.md R302). -/
def addFlags {w : Nat} (a b : BitVec w) (c : Bool) (v : Word) : Word :=
  let r := addResult a b c
  putSZP r
    (putFlag .OF (a.msb == b.msb && r.msb != a.msb)
      (putFlag .AF ((a ^^^ b ^^^ r).getLsbD 4)
        (putFlag .CF (decide (2 ^ w ≤ a.toNat + b.toNat + c.toNat)) v)))

/-- The result of `sub_w` (42_arithmetic.md R303). -/
def subResult {w : Nat} (a b : BitVec w) (c : Bool) : BitVec w :=
  BitVec.ofInt w ((a.toNat : Int) - b.toNat - c.toNat)

/-- The flags of `sub_w`: CF the borrow of the wide result, AF the borrow into bit 4, OF when the operand signs differ and the
result's differs from the minuend's, then SF, ZF, PF (42_arithmetic.md R303). -/
def subFlags {w : Nat} (a b : BitVec w) (c : Bool) (v : Word) : Word :=
  let r := subResult a b c
  putSZP r
    (putFlag .OF (a.msb != b.msb && r.msb != a.msb)
      (putFlag .AF ((a ^^^ b ^^^ r).getLsbD 4)
        (putFlag .CF (decide ((a.toNat : Int) - b.toNat - c.toNat < 0)) v)))

/-- CF, PF, AF, ZF, SF and OF cleared: the flags DIV and IDIV leave (42_arithmetic.md R322, R323; D3). -/
def clearStatus (v : Word) : Word :=
  putFlag .OF false (putFlag .SF false (putFlag .ZF false (putFlag .AF false (putFlag .PF false (putFlag .CF false v)))))

/-- The seven shift and rotate operations (44_logic_shift.md R400; 30_encoding.md R160, group 2). -/
inductive ShiftOp where
  | rol | ror | rcl | rcr | shl | shr | sar
deriving DecidableEq, Repr

/-- SHL, SHR and SAR also write SF, ZF, PF and leave AF a draw; rotates do not (44_logic_shift.md R400). -/
def ShiftOp.isShift : ShiftOp → Bool
  | .shl | .shr | .sar => true
  | .rol | .ror | .rcl | .rcr => false

/-- ROL, RCL and SHL go left (44_logic_shift.md R408). -/
def ShiftOp.isLeft : ShiftOp → Bool
  | .rol | .rcl | .shl => true
  | .ror | .rcr | .shr | .sar => false

/-- A word of width `w` whose least significant bit is `b`. -/
def lowBit {w : Nat} (b : Bool) : BitVec w := BitVec.ofNat w b.toNat

/-- The operand after one step, with CF before the step as carry-in (44_logic_shift.md R401-R407). -/
def shiftOnce {w : Nat} (op : ShiftOp) (cf : Bool) (v : BitVec w) : BitVec w :=
  match op with
  | .rol => (v <<< 1) ||| lowBit v.msb
  | .ror => (v >>> 1) ||| (lowBit (v.getLsbD 0) <<< (w - 1))
  | .rcl => (v <<< 1) ||| lowBit cf
  | .rcr => (v >>> 1) ||| (lowBit cf <<< (w - 1))
  | .shl => v <<< 1
  | .shr => v >>> 1
  | .sar => (v >>> 1) ||| (lowBit v.msb <<< (w - 1))

/-- The bit a step shifts out: the new CF (44_logic_shift.md R401-R407). -/
def shiftedOut {w : Nat} (op : ShiftOp) (v : BitVec w) : Bool :=
  if op.isLeft then v.msb else v.getLsbD 0

/-- OF after a step that gave `r` and the new carry `c`: for a left operation the carry XOR the high bit, for a right operation the
XOR of the two high bits (44_logic_shift.md R408; 90_conflicts.md C2). -/
def shiftOverflow {w : Nat} (op : ShiftOp) (c : Bool) (r : BitVec w) : Bool :=
  if op.isLeft then c ^^ r.msb else r.msb ^^ r.getLsbD (w - 2)

/-- One step: `STEP_op` (44_logic_shift.md R401-R407). -/
def shiftStep {w : Nat} (op : ShiftOp) (p : BitVec w × Word) : BitVec w × Word :=
  let c := shiftedOut op p.1
  let r := shiftOnce op (getFlag .CF p.2) p.1
  (r, putFlag .OF (shiftOverflow op c r) (putFlag .CF c p.2))

/-- `repeat count times: STEP_op` (44_logic_shift.md R400). -/
def shiftSteps {w : Nat} (op : ShiftOp) : Nat → BitVec w × Word → BitVec w × Word
  | 0, p => p
  | n + 1, p => shiftSteps op n (shiftStep op p)

/-- The mnemonic of a flag in the diagnostic text (10_state.md R61). -/
def Flag.mnemonic : Flag → String
  | .CF => "CF"
  | .PF => "PF"
  | .AF => "AF"
  | .ZF => "ZF"
  | .SF => "SF"
  | .TF => "TF"
  | .IF => "IF"
  | .DF => "DF"
  | .OF => "OF"

/-- The flags part of the diagnostic register text: the active flags in the fixed order `OF DF IF TF SF ZF AF PF CF`, space-joined
(10_state.md R61; the registers' part has no stated order, log entry 27). -/
def flagsText (v : Word) : String :=
  String.intercalate " "
    (([Flag.OF, .DF, .IF, .TF, .SF, .ZF, .AF, .PF, .CF].filter fun f => getFlag f v).map Flag.mnemonic)

end Sys2Proof.Machine
end

