-- ==== Sys2Proof/Machine/HostInterface.lean ====
section
/-! DEFINITION. The delegate contract as plain data: the calls the core makes of the host, what the host may do during one, and its reply
(60_exceptions.md section 5; 20_memory.md R100, R115). -/

namespace Sys2Proof.Machine

/-- A call of the host, with what the core passes (60_exceptions.md R600-R607). The message of `invalidOpcode` is the bytes fetched in
the step (R572, D38; log entry 13). -/
inductive HostCall where
  | fetched8 (value : Byte) (instructionCount : BitVec 64)
  | fetched16 (value : Word) (instructionCount : BitVec 64)
  | interrupt (number : Byte)
  | halt
  | portRead8 (address : Word)
  | portRead16 (address : Word)
  | portWrite8 (address : Word) (value : Byte)
  | portWrite16 (address : Word) (value : Word)
  | invalidMemoryAccess (address : Addr) (permissionMask : Byte)
  | invalidOpcode (message : List Byte)
deriving DecidableEq, Repr

/-- What the host may do to the core during a call (60_exceptions.md R609; 20_memory.md R85, R115): write registers and flags, write
memory unchecked, change permissions over a range of `count` bytes from `start` (D37), run `pop16` or `iret`. -/
inductive HostAct where
  | setReg (r : Reg16) (v : Word)
  | setReg8 (r : Reg8) (v : Byte)
  | setSReg (r : SReg) (v : Word)
  | setIp (v : Word)
  | setFlags (v : Word)
  | setFlag (f : Flag) (b : Bool)
  | poke (a : Addr) (v : Byte)
  | applyPermission (start : Addr) (count : Nat) (mask : Byte)
  | removePermission (start : Addr) (count : Nat) (mask : Byte)
  | pop16
  | iret
deriving DecidableEq, Repr

/-- The host's reply to one call: what it does, whether it then returns (else the run ends there, 40_pipeline.md R231), and its answer to a
port read (none: a free value, D29). -/
structure HostReply where
  returns : Bool
  acts : List HostAct
  answer : Option Word
deriving DecidableEq, Repr

/-- The reply of the passive host: it returns and changes nothing; a port read gives a free value (60_exceptions.md R609; D36). That the
default host gives this reply at `halt`, changes nothing else in a port read, and returns from its calls is DESIGN CHOICE, unsafe: the spec
says neither (log entry 31). -/
def HostReply.passive : HostReply := { returns := true, acts := [], answer := none }

/-- The call of 60_exceptions.md R602. -/
def HostCall.isInterrupt : HostCall → Bool
  | .interrupt _ => true
  | .fetched8 _ _ | .fetched16 _ _ | .halt | .portRead8 _ | .portRead16 _ | .portWrite8 _ _ | .portWrite16 _ _
  | .invalidMemoryAccess _ _ | .invalidOpcode _ => false

end Sys2Proof.Machine
end

