-- ==== Sys2Proof/Config.lean ====
section
/-! DEFINITION. What the spec leaves open and the model holds fixed or free: the UNDEF draws of
00_scope.md R16, the port answers of 92_eei_decisions.md D29 and what the default host does at an interrupt
(D36) are uninterpreted constants with no body;
the two default bytes are what unlisted memory and permission bytes read as. -/

namespace Sys2Proof.Config

/-- The `n`-th Boolean draw (`UNDEF`, 00_scope.md R16): no body, so no proof can see its value. The argument is
State's counter of draws, so every occurrence is drawn afresh (log entry 6). -/
opaque freeBit : Nat → Bool

/-- The `n`-th 16-bit draw: what a port read returns when the host's script gives no answer
(20_memory.md R100, 92_eei_decisions.md D29; log entry 7). No body. -/
opaque freeWord : Nat → Word

/-- The `n`-th free reply of the default host at an `interrupt` call: whether it returns, and what it does first. R609 lets it do
anything there (60_exceptions.md R609, 92_eei_decisions.md D36; log entry 29). No body. -/
opaque freeInterrupt : Nat → Bool × List Machine.HostAct

/-- What a byte of memory reads as before anything is stored there. The spec leaves the initial memory `M0` to the
host (10_state.md R60, D20): DESIGN CHOICE 0x00 (log entry 1). -/
def unlistedByte : Byte := 0x00

/-- The permission byte of an address whose permissions nothing has changed: execute 0x01, read 0x02 and write 0x04
all granted (20_memory.md R85, R86; log entry 2). -/
def allGranted : Byte := 0x07

end Sys2Proof.Config
end

