-- ==== Sys2Proof/Machine/State.lean ====
section
/-! DEFINITION. The machine's state as plain data: every piece of state 10_state.md and 20_memory.md name, the host's script and
the record of its calls (60_exceptions.md section 5), the ways a step can stop, and the state after reset (10_state.md R60). -/

namespace Sys2Proof.Machine

/-- The run state (10_state.md R52). Between steps it is `idle` or `halted`. -/
inductive RunState where
  | idle | fetchingPrefixes | fetchedOpcode | executing | halted | interrupted
deriving DecidableEq, Repr

/-- The eight general registers (10_state.md R30). The 8-bit registers are views of the first four (R31). -/
structure Regs where
  ax : Word
  cx : Word
  dx : Word
  bx : Word
  sp : Word
  bp : Word
  si : Word
  di : Word
deriving DecidableEq, Repr

/-- The four segment registers (10_state.md R33). -/
structure SegRegs where
  es : Word
  cs : Word
  ss : Word
  ds : Word
deriving DecidableEq, Repr

/-- The state of the machine. -/
structure State where
  /-- AX .. DI (10_state.md R30). -/
  regs : Regs
  /-- ES, CS, SS, DS (10_state.md R33). -/
  sregs : SegRegs
  /-- IP (10_state.md R35). -/
  ip : Word
  /-- FLAGS (10_state.md R40). -/
  flags : Word
  /-- The pending segment override (10_state.md R50). -/
  segOverride : Option SReg
  /-- `repeat`: a repeat prefix is pending (10_state.md R50). -/
  rep : Bool
  /-- `repeatWhile`: the ZF value a repeated CMPS or SCAS continues on (10_state.md R50). -/
  repeatWhile : Bool
  /-- The last prefix byte of this step was 0xF2 or 0xF3 (42_arithmetic.md R326); transient, the model's own (log entry 10). -/
  lastPrefixRep : Bool
  /-- `seg_E` and `ea_E` as the decoder resolved them (00_scope.md R13); transient (log entry 14). -/
  ea : Option (Word × Word)
  /-- This step has dispatched an interrupt (60_exceptions.md R590); transient, the model's own (log entry 18). -/
  raised : Bool
  /-- The instruction-stream bytes of this step, in order (D38); transient, the model's own (log entry 13). -/
  stepBytes : List Byte
  /-- `instructionCount` (10_state.md R51). -/
  instructionCount : BitVec 64
  /-- The run state (10_state.md R52). -/
  runState : RunState
  /-- The memory `M` (20_memory.md R84): rising addresses, no byte equal to `Config.unlistedByte`. -/
  mem : List Host.Cell
  /-- The permission bytes `P` (20_memory.md R85): rising addresses, no byte equal to `Config.allGranted`. -/
  perm : List Host.Cell
  /-- The parameter SINGLE_STEP (60_exceptions.md R590; log entry 8). -/
  singleStep : Bool
  /-- The parameter HOST: the replies to the coming calls, next first; none left is the default host, passive but at
  `interrupt` (60_exceptions.md R609; log entry 3; at `halt` and in a port read by the model's choice, log entry 31). -/
  host : List HostReply
  /-- The parameter HOST at an `interrupt` call past that script: a reply of its own, or, where there is none, anything: a free reply, as the
  default HOST of 60_exceptions.md R609 has it (log entry 29). -/
  atInterrupt : Option HostReply
  /-- The host calls made so far, newest first; the model's own record (log entry 5). -/
  calls : List HostCall
  /-- How many draws have been taken (00_scope.md R16); the model's own (log entry 6). -/
  draws : Nat
deriving DecidableEq, Repr

/-- Why a step does not end in a next state. All are safe: the model stops, it claims nothing of the hardware. -/
inductive Fault where
  /-- The host did not return from this call, which ends the run; `final` is the state at that point, the host's acts in it done
  (40_pipeline.md R231 (c), R232; D18; log entry 22). Raised by `callHostWith`. Safe. -/
  | hostStopped (c : HostCall) (final : State)
  /-- The core is Halted, which is final: no further step runs (47_system.md R530, D23). Raised by `step`. Safe. -/
  | halted
  /-- A step needs the run state Idle (40_pipeline.md R200). Raised by `step` in a state no run reaches between steps. Safe. -/
  | notIdle (r : RunState)
  /-- The prefix chain has no end: a whole code segment of prefix bytes, so that the hardware's step would never end (40_pipeline.md
  R205; log entry 9). Raised by `step`. Safe. -/
  | endlessPrefixes
  /-- The bound on the iterations of a repeated string instruction is spent, which no run does: it is there to make the loop total
  (log entry 11). Raised by `stringOp`. Safe. -/
  | repeatBound
deriving DecidableEq, Repr

/-- Why the model gives an instruction no meaning. No instruction of this model is refused. -/
inductive Refusal where
  /-- An instruction that has no meaning yet, by its mnemonic in the opcode table. Safe. -/
  | notModelled (mnemonic : String)
deriving DecidableEq, Repr

/-- The outcome of an instruction or of a step. -/
abbrev Out := Host.Outcome State Fault Refusal

/-- The outcome of an operation that also gives a value. -/
abbrev Res (α : Type) := Host.Outcome (α × State) Fault Refusal

/-- The machine right after reset (10_state.md R60; 70_reset_and_hazards.md R630). The model's own fields start empty. -/
def State.reset : State where
  regs := { ax := 0, cx := 0, dx := 0, bx := 0, sp := 0, bp := 0, si := 0, di := 0 }
  sregs := { es := 0, cs := 0xF000, ss := 0, ds := 0 }
  ip := 0xFFF0
  flags := 0xF002
  segOverride := none
  rep := false
  repeatWhile := false
  lastPrefixRep := false
  ea := none
  raised := false
  stepBytes := []
  instructionCount := 0
  runState := .idle
  mem := []
  perm := []
  singleStep := false
  host := []
  atInterrupt := none
  calls := []
  draws := 0

end Sys2Proof.Machine
end

