-- ==== Sys2Proof/Machine/Ops.lean ====
section
/-! DEFINITION. The named operations over the state: registers, flags, memory and permissions, host calls, checked accesses, the stack,
draws, taking an interrupt and returning from one, and the end of a step. -/

namespace Sys2Proof.Machine

/-! ### Sequencing -/

/-- Goes on with `f` where `o` answers next, and stops as `o` does where it stops (00_scope.md R14: a rule runs top to bottom). -/
def thenDo {α β : Type} (o : Host.Outcome α Fault Refusal) (f : α → Host.Outcome β Fault Refusal) :
    Host.Outcome β Fault Refusal :=
  match o with
  | .next a => f a
  | .fault r => .fault r
  | .refused r => .refused r

/-- `thenDo` after an operation that gives a value. -/
def thenWith {α β : Type} (o : Res α) (f : α → State → Host.Outcome β Fault Refusal) : Host.Outcome β Fault Refusal :=
  thenDo o fun p => f p.1 p.2

/-! ### Registers (10_state.md R30-R36) -/

/-- Reads a general register. -/
def Regs.get (r : Regs) : Reg16 → Word
  | .ax => r.ax
  | .cx => r.cx
  | .dx => r.dx
  | .bx => r.bx
  | .sp => r.sp
  | .bp => r.bp
  | .si => r.si
  | .di => r.di

/-- Writes a general register. -/
def Regs.set (r : Regs) (k : Reg16) (v : Word) : Regs :=
  match k with
  | .ax => { r with ax := v }
  | .cx => { r with cx := v }
  | .dx => { r with dx := v }
  | .bx => { r with bx := v }
  | .sp => { r with sp := v }
  | .bp => { r with bp := v }
  | .si => { r with si := v }
  | .di => { r with di := v }

/-- Reads a segment register. -/
def SegRegs.get (r : SegRegs) : SReg → Word
  | .es => r.es
  | .cs => r.cs
  | .ss => r.ss
  | .ds => r.ds

/-- Writes a segment register. -/
def SegRegs.set (r : SegRegs) (k : SReg) (v : Word) : SegRegs :=
  match k with
  | .es => { r with es := v }
  | .cs => { r with cs := v }
  | .ss => { r with ss := v }
  | .ds => { r with ds := v }

/-- The 16-bit register an 8-bit register is a half of (10_state.md R31). -/
def wideReg : Reg8 → Reg16
  | .al | .ah => .ax
  | .cl | .ch => .cx
  | .dl | .dh => .dx
  | .bl | .bh => .bx

/-- AH, CH, DH and BH are the high halves (10_state.md R31). -/
def isHigh : Reg8 → Bool
  | .al | .cl | .dl | .bl => false
  | .ah | .ch | .dh | .bh => true

namespace State

/-- A general register (10_state.md R30). -/
def reg (s : State) (r : Reg16) : Word := s.regs.get r

/-- Writes a general register (10_state.md R30). -/
def setReg (s : State) (r : Reg16) (v : Word) : State := { s with regs := s.regs.set r v }

/-- An 8-bit register: a half of a general register (10_state.md R31). -/
def reg8 (s : State) (r : Reg8) : Byte :=
  if isHigh r then hiByte (s.reg (wideReg r)) else loByte (s.reg (wideReg r))

/-- Writes an 8-bit register; the other half keeps its value (10_state.md R31). -/
def setReg8 (s : State) (r : Reg8) (v : Byte) : State :=
  let old := s.reg (wideReg r)
  s.setReg (wideReg r) (if isHigh r then wordOf (loByte old) v else wordOf v (hiByte old))

/-- A segment register (10_state.md R33). -/
def sreg (s : State) (r : SReg) : Word := s.sregs.get r

/-- Writes a segment register (10_state.md R33). -/
def setSReg (s : State) (r : SReg) (v : Word) : State := { s with sregs := s.sregs.set r v }

/-- Writes IP (10_state.md R36). -/
def setIp (s : State) (v : Word) : State := { s with ip := v }

/-- Changes the run state (10_state.md R52). -/
def setRunState (s : State) (r : RunState) : State := { s with runState := r }

/-- Notes that this step has dispatched an interrupt (60_exceptions.md R590). -/
def markRaised (s : State) : State := { s with raised := true }

/-- `instructionCount <- instructionCount + 1` (40_pipeline.md R220). -/
def counted (s : State) : State := { s with instructionCount := s.instructionCount + 1 }

/-! ### Flags (10_state.md R40-R44) -/

/-- A flag's value. -/
def flag (s : State) (f : Flag) : Bool := getFlag f s.flags

/-- A single-flag write (10_state.md R40). -/
def setFlag (s : State) (f : Flag) (b : Bool) : State := { s with flags := putFlag f b s.flags }

/-- Replaces FLAGS by a function of it, for the flag computations of Machine/Flags.lean. -/
def mapFlags (s : State) (g : Word → Word) : State := { s with flags := g s.flags }

/-- `setValue16` (10_state.md R40). -/
def setFlags16 (s : State) (v : Word) : State := { s with flags := maskFlags v }

/-- `getValue16` (10_state.md R42). -/
def flags16 (s : State) : Word := s.flags

/-- `getValue8`: FLAGS[7:0] (10_state.md R42). -/
def flags8 (s : State) : Byte := loByte s.flags

/-! ### Draws (00_scope.md R16) -/

/-- The value of the next Boolean draw. -/
def draw (s : State) : Bool := Config.freeBit s.draws

/-- The state after one draw. -/
def drawn (s : State) : State := { s with draws := s.draws + 1 }

/-- `F <- UNDEF` (00_scope.md R16). -/
def freeFlag (s : State) (f : Flag) : State := (s.setFlag f s.draw).drawn

/-- `F <- UNDEF` for each flag of a list, in order, each with a draw of its own. -/
def freeFlags (s : State) (fs : List Flag) : State := fs.foldl freeFlag s

end State

/-! ### Memory cells -/

/-- The byte a list of cells holds at an address; `d` where the address is not listed. -/
def cellGet (d : Byte) (a : Nat) : List Host.Cell → Byte
  | [] => d
  | (b, v) :: cells => if a = b then v else cellGet d a cells

/-- Stores a byte, keeping the canonical form: addresses rise, and no entry equals `d`. -/
def cellSet (d : Byte) (a : Nat) (v : Byte) : List Host.Cell → List Host.Cell
  | [] => if v = d then [] else [(a, v)]
  | (b, u) :: cells =>
    if a < b then (if v = d then (b, u) :: cells else (a, v) :: (b, u) :: cells)
    else if a = b then (if v = d then cells else (a, v) :: cells)
    else (b, u) :: cellSet d a v cells

/-- The canonical form of a list of cells whose addresses are at least `lo`: addresses rise and lie below 0x100000, and no entry
equals `d` (20_memory.md R84). -/
def cellsWf (d : Byte) (lo : Nat) : List Host.Cell → Bool
  | [] => true
  | (a, v) :: cells => decide (lo ≤ a) && decide (a < 0x100000) && (v != d) && cellsWf d (a + 1) cells

/-- The memory's canonical form. -/
def Memory.wf (m : List Host.Cell) : Bool := cellsWf Config.unlistedByte 0 m

/-- The permission bitmap's canonical form. -/
def Permissions.wf (p : List Host.Cell) : Bool := cellsWf Config.allGranted 0 p

/-! ### Addresses, memory and permissions (20_memory.md R80-R86) -/

/-- `lin(seg, off) = ((seg << 4) + off) mod 0x100000` (20_memory.md R80). -/
def lin (seg off : Word) : Addr := (seg.setWidth 20 <<< 4) + off.setWidth 20

/-- A permission (20_memory.md R85). -/
inductive Permission where
  | execute | read | write
deriving DecidableEq, Repr

/-- The mask of a permission: EXECUTE 0x01, READ 0x02, WRITE 0x04 (20_memory.md R86). -/
def Permission.mask : Permission → Byte
  | .execute => 0x01
  | .read => 0x02
  | .write => 0x04

namespace State

/-- `M[a]`, the unchecked read (20_memory.md R84, R115). -/
def peek (s : State) (a : Addr) : Byte := cellGet Config.unlistedByte a.toNat s.mem

/-- `M[a] <- v`, the unchecked write (20_memory.md R84, R115). -/
def poke (s : State) (a : Addr) (v : Byte) : State :=
  { s with mem := cellSet Config.unlistedByte a.toNat v s.mem }

/-- The permission byte `P[a]` (20_memory.md R85). -/
def permAt (s : State) (a : Addr) : Byte := cellGet Config.allGranted a.toNat s.perm

/-- Writes the permission byte of an address; only the three permission bits are kept. -/
def setPermAt (s : State) (a : Addr) (v : Byte) : State :=
  { s with perm := cellSet Config.allGranted a.toNat (v &&& 0x07) s.perm }

/-- Whether an address has a permission (20_memory.md R85). -/
def allows (s : State) (k : Permission) (a : Addr) : Bool := s.permAt a &&& k.mask != 0

/-- `applyPermission` over `count` bytes from `a`: ORs the mask in (20_memory.md R85; D37). -/
def applyPermission (mask : Byte) : Nat → Addr → State → State
  | 0, _, s => s
  | n + 1, a, s => applyPermission mask n (a + 1) (s.setPermAt a (s.permAt a ||| mask))

/-- `removePermission` over `count` bytes from `a`: ANDs the mask out (20_memory.md R85; D37). -/
def removePermission (mask : Byte) : Nat → Addr → State → State
  | 0, _, s => s
  | n + 1, a, s => removePermission mask n (a + 1) (s.setPermAt a (s.permAt a &&& ~~~mask))

/-- Records a host call. -/
def logCall (s : State) (c : HostCall) : State := { s with calls := c :: s.calls }

/-- The state at a call of the host: the call is recorded, and its reply of the script used up. -/
def told (s : State) (c : HostCall) : State := { s with host := s.host.tail }.logCall c

end State

/-! ### Checked reads, whoever reports (20_memory.md R88-R91; 60_exceptions.md R586, R609)

The core reports a missing permission by a call of the host, and so does `pop16` or `iret` that the host runs during a call. These
operations take that report as an argument, so that both run the same text. -/

/-- How a missing permission at an address is reported. -/
abbrev Reporter := Permission → Addr → State → Out

/-- Reports a missing permission, before the access (20_memory.md R88-R90, D17). -/
def checkBy (report : Reporter) (k : Permission) (a : Addr) (s : State) : Out :=
  if s.allows k a then .next s else report k a s

/-- `readByte` (20_memory.md R88). -/
def readByteBy (report : Reporter) (a : Addr) (s : State) : Res Byte :=
  thenDo (checkBy report .read a s) fun s => .next (s.peek a, s)

/-- `MemRead(seg, off, 2)`: ascending, the offset wrapping in the segment (20_memory.md R81, R91). -/
def readWordBy (report : Reporter) (seg off : Word) (s : State) : Res Word :=
  thenWith (readByteBy report (lin seg off) s) fun lo s =>
    thenWith (readByteBy report (lin seg (off + 1)) s) fun hi s => .next (wordOf lo hi, s)

/-- `Pop16` (41_data_transfer.md R251). -/
def popBy (report : Reporter) (s : State) : Res Word :=
  thenWith (readWordBy report (s.sreg .ss) (s.reg .sp) s) fun v s => .next (v, s.setReg .sp (s.reg .sp + 2))

/-- The return from an interrupt: pops IP, CS, then FLAGS (60_exceptions.md R585; 47_system.md R523). -/
def iretBy (report : Reporter) (s : State) : Out :=
  thenWith (popBy report s) fun v s =>
  thenWith (popBy report (s.setIp v)) fun v s =>
  thenWith (popBy report (s.setSReg .cs v)) fun v s => .next (s.setFlags16 v)

/-! ### What the host does during a call (60_exceptions.md R609) -/

/-- One act of the host. Its `pop16` and `iret` report missing permissions like any other read (R586). -/
def hostAct (report : Reporter) (s : State) : HostAct → Out
  | .setReg r v => .next (s.setReg r v)
  | .setReg8 r v => .next (s.setReg8 r v)
  | .setSReg r v => .next (s.setSReg r v)
  | .setIp v => .next (s.setIp v)
  | .setFlags v => .next (s.setFlags16 v)
  | .setFlag f b => .next (s.setFlag f b)
  | .poke a v => .next (s.poke a v)
  | .applyPermission start count mask => .next (State.applyPermission mask count start s)
  | .removePermission start count mask => .next (State.removePermission mask count start s)
  | .pop16 => thenWith (popBy report s) fun _ s => .next s
  | .iret => iretBy report s

/-- The acts of one reply, in order. -/
def hostActs (report : Reporter) : List HostAct → State → Out
  | [], s => .next s
  | a :: acts, s => thenDo (hostAct report s a) (hostActs report acts)

/-! ### Host calls (60_exceptions.md section 5) -/

/-- The free reply of the default host at an `interrupt` call (60_exceptions.md R609, D36; log entry 29). -/
def freeReply (n : Nat) : HostReply :=
  { returns := (Config.freeInterrupt n).1, acts := (Config.freeInterrupt n).2, answer := none }

namespace State

/-- The host's reply to a call: the next of its script; past the script it is passive, but at `interrupt` it does what `atInterrupt` says,
or anything (60_exceptions.md R609, D36). R609 names neither `halt` nor what a port read changes besides its answer: that the default host
is passive there too is DESIGN CHOICE, unsafe (log entry 31). -/
def replyTo (s : State) (c : HostCall) : HostReply :=
  match s.host with
  | r :: _ => r
  | [] => if c.isInterrupt then s.atInterrupt.getD (freeReply s.draws) else .passive

/-- The state in which the host starts on a call; a free reply is a draw. -/
def heard (s : State) (c : HostCall) : State :=
  if s.host.isEmpty && c.isInterrupt && s.atInterrupt.isNone then (s.told c).drawn else s.told c

end State

/-- Calls the host: what its reply does, and then the run goes on, or ends there where the host does not return (60_exceptions.md R609;
40_pipeline.md R231). A report met in the host's own `pop16` or `iret` is a call inside this one, with a reply of its own; the bound
counts such calls, each of which uses up a reply or, past the script, does nothing. -/
def callHostWith : Nat → HostCall → State → Out
  | 0, c, s => .next (s.told c)
  | bound + 1, c, s =>
    thenDo (hostActs (fun k a => callHostWith bound (.invalidMemoryAccess a k.mask)) (s.replyTo c).acts (s.heard c)) fun t =>
      if (s.replyTo c).returns then .next t else .fault (.hostStopped c t)

/-- Calls the host (60_exceptions.md R600-R609). -/
def callHost (c : HostCall) (s : State) : Out := callHostWith (s.host.length + 1) c s

/-- Reports a missing permission to the host (60_exceptions.md R606). -/
def report : Reporter := fun k a => callHost (.invalidMemoryAccess a k.mask)

/-- A port read: the host's answer, or a free value where it gives none (20_memory.md R100; D29). -/
def portRead (c : HostCall) (s : State) : Res Word :=
  thenDo (callHost c s) fun t =>
    match (s.replyTo c).answer with
    | some v => .next (v, t)
    | none => .next (Config.freeWord t.draws, t.drawn)

/-- The `halt()` call: the core goes on to Halted whether or not the host returns (47_system.md R530, D23; log entry 17). -/
def haltCall (s : State) : State :=
  match callHost .halt s with
  | .next t => t
  | .fault (.hostStopped _ t) => t
  | _ => s

/-! ### Checked accesses (20_memory.md R88-R97) -/

/-- Reports a missing permission to the host, before the access (20_memory.md R88-R90, D17). -/
def checkAccess (k : Permission) (a : Addr) (s : State) : Out := checkBy report k a s

/-- `readByte` (20_memory.md R88). -/
def readByte (a : Addr) (s : State) : Res Byte := readByteBy report a s

/-- `writeByte` (20_memory.md R89). -/
def writeByte (a : Addr) (v : Byte) (s : State) : Out :=
  thenDo (checkAccess .write a s) fun s => .next (s.poke a v)

/-- `fetchByte` (20_memory.md R90). -/
def fetchByte (a : Addr) (s : State) : Res Byte :=
  thenDo (checkAccess .execute a s) fun s => .next (s.peek a, s)

/-- `MemRead(seg, off, 1)` (20_memory.md R91). -/
def memRead8 (seg off : Word) (s : State) : Res Byte := readByte (lin seg off) s

/-- `MemRead(seg, off, 2)` (20_memory.md R91). -/
def memRead16 (seg off : Word) (s : State) : Res Word := readWordBy report seg off s

/-- `MemRead(seg, off, 4)`, a far pointer: the offset word at `off`, then the segment word at `off + 2` (20_memory.md R91, R93). -/
def memReadFar (seg off : Word) (s : State) : Res (Word × Word) :=
  thenWith (memRead16 seg off s) fun o s =>
    thenWith (memRead16 seg (off + 2) s) fun sg s => .next ((o, sg), s)

/-- `MemWrite(seg, off, 1, v)` (20_memory.md R92). -/
def memWrite8 (seg off : Word) (v : Byte) (s : State) : Out := writeByte (lin seg off) v s

/-- `MemWrite(seg, off, 2, v)` (20_memory.md R92). -/
def memWrite16 (seg off : Word) (v : Word) (s : State) : Out :=
  thenDo (writeByte (lin seg off) (loByte v) s) fun s => writeByte (lin seg (off + 1)) (hiByte v) s

/-! ### The stack (41_data_transfer.md R250, R251) -/

/-- `Push16`. -/
def push16 (v : Word) (s : State) : Out :=
  let s := s.setReg .sp (s.reg .sp - 2)
  memWrite16 (s.sreg .ss) (s.reg .sp) v s

/-- `Pop16`. -/
def pop16 (s : State) : Res Word := popBy report s

/-! ### Taking an interrupt and returning from one (60_exceptions.md R580, R585) -/

/-- The offset of a vector's entry in segment 0: `4*n` (20_memory.md R101). -/
def vectorOffset (n : Byte) : Word := zext16 n * 4

/-- `raise Interrupt(n)` (60_exceptions.md R580): pushes FLAGS, CS and IP, clears TF and IF, loads CS:IP from the vector table, and calls
the host. -/
def interrupt (n : Byte) (s : State) : Out :=
  thenDo (push16 s.flags16 s) fun s =>
  thenDo (push16 (s.sreg .cs) s) fun s =>
  thenDo (push16 s.ip s) fun s =>
  let s := (s.setFlag .TF false).setFlag .IF false
  thenWith (memReadFar 0 (vectorOffset n) s) fun p s =>
  thenDo (callHost (.interrupt n) (((s.setIp p.1).setSReg .cs p.2).markRaised.setRunState .interrupted)) fun s =>
  .next (s.setRunState .idle)

/-- The return from an interrupt (60_exceptions.md R585; 47_system.md R523). -/
def returnFromInterrupt (s : State) : Out := iretBy report s

/-- `divideFault()`: the six status flags are draws, and vector 0 is raised (42_arithmetic.md R325). -/
def divideFault (s : State) : Out := interrupt 0 (s.freeFlags [.CF, .PF, .AF, .ZF, .SF, .OF])

/-! ### The start and the end of a step (40_pipeline.md R200, R220) -/

/-- The start of a step: the transient state is cleared (40_pipeline.md R200). -/
def beginStep (s : State) : State :=
  { s with
    segOverride := none, rep := false, repeatWhile := false, lastPrefixRep := false, ea := none, raised := false,
    stepBytes := [], runState := .fetchingPrefixes }

/-- MOV Sreg, E and POP Sreg: the single-step trap is not taken after them (60_exceptions.md R590). -/
def loadsSReg : Instr → Bool
  | .movEsEw _ | .movSsEw _ | .movDsEw _ | .popEs | .popSs | .popDs => true
  | _ => false

/-- The end of a step that ran `i` and began with TF = `tf`: unless the core is Halted, the run state is Idle and the counter goes up
(40_pipeline.md R220), and with SINGLE_STEP the trap of 60_exceptions.md R590 is taken where it applies. -/
def endStep (tf : Bool) (i : Instr) (s : State) : Out :=
  if s.runState = .halted then .next s
  else
    let s := (s.setRunState .idle).counted
    if s.singleStep && tf && !s.raised && !loadsSReg i then interrupt 1 s else .next s

end Sys2Proof.Machine
end

