-- ==== Sys2Proof/Machine/Operands.lean ====
section
/-! DEFINITION. Every operand form: the effective address of the mod/reg/rm byte (30_encoding.md R141-R145), the operand E located
once and then read and written there (40_pipeline.md R211), and the data segment of the operands that have no mod/reg/rm byte
(40_pipeline.md R208). -/

namespace Sys2Proof.Machine

/-- The sum of the base and index registers (30_encoding.md R143). -/
def baseValue (b : AddrBase) (s : State) : Word :=
  match b with
  | .bxSi => s.reg .bx + s.reg .si
  | .bxDi => s.reg .bx + s.reg .di
  | .bpSi => s.reg .bp + s.reg .si
  | .bpDi => s.reg .bp + s.reg .di
  | .si => s.reg .si
  | .di => s.reg .di
  | .bp => s.reg .bp
  | .bx => s.reg .bx

/-- `ea_E`, wrapping at 16 bits (30_encoding.md R143). -/
def offsetOf (m : MemOp) (s : State) : Word :=
  match m with
  | .direct d => d
  | .base b => baseValue b s
  | .disp8 b d => baseValue b s + sext16 d
  | .disp16 b d => baseValue b s + d

/-- SS when BP participates (30_encoding.md R144). -/
def baseSeg : AddrBase → SReg
  | .bpSi | .bpDi | .bp => .ss
  | .bxSi | .bxDi | .si | .di | .bx => .ds

/-- The default segment: DS for the displacement-only form (30_encoding.md R144; 90_conflicts.md C3). -/
def defaultSeg : MemOp → SReg
  | .direct _ => .ds
  | .base b => baseSeg b
  | .disp8 b _ => baseSeg b
  | .disp16 b _ => baseSeg b

/-- The segment value a pending override gives, else that of the register `r` (30_encoding.md R145; 40_pipeline.md R208). -/
def segOr (r : SReg) (s : State) : Word :=
  match s.segOverride with
  | some o => s.sreg o
  | none => s.sreg r

/-- `seg_E` and `ea_E` as the decoder resolves them (30_encoding.md R143-R145). -/
def resolve (m : MemOp) (s : State) : Word × Word := (segOr (defaultSeg m) s, offsetOf m s)

/-- The address of a memory operand: as the decoder resolved it in this step, or, where no step has decoded it, as it resolves now
(00_scope.md R13; log entry 14). -/
def memAddr (m : MemOp) (s : State) : Word × Word := s.ea.getD (resolve m s)

/-- Where an operand E is: a register, or a segment and an offset (30_encoding.md R149). -/
inductive Loc (ρ : Type) where
  | reg (r : ρ)
  | mem (seg off : Word)
deriving DecidableEq, Repr

/-- Locates an 8-bit operand, once (40_pipeline.md R211). -/
def locate8 (e : Rm8) (s : State) : Loc Reg8 :=
  match e with
  | .reg r => .reg r
  | .mem m => .mem (memAddr m s).1 (memAddr m s).2

/-- Locates a 16-bit operand, once (40_pipeline.md R211). -/
def locate16 (e : Rm16) (s : State) : Loc Reg16 :=
  match e with
  | .reg r => .reg r
  | .mem m => .mem (memAddr m s).1 (memAddr m s).2

/-- `read(E)`, 8 bits (00_scope.md R13). -/
def readLoc8 (l : Loc Reg8) (s : State) : Res Byte :=
  match l with
  | .reg r => .next (s.reg8 r, s)
  | .mem seg off => memRead8 seg off s

/-- `write(E, v)`, 8 bits (00_scope.md R13). -/
def writeLoc8 (l : Loc Reg8) (v : Byte) (s : State) : Out :=
  match l with
  | .reg r => .next (s.setReg8 r v)
  | .mem seg off => memWrite8 seg off v s

/-- `read(E)`, 16 bits (00_scope.md R13). -/
def readLoc16 (l : Loc Reg16) (s : State) : Res Word :=
  match l with
  | .reg r => .next (s.reg r, s)
  | .mem seg off => memRead16 seg off s

/-- `write(E, v)`, 16 bits (00_scope.md R13). -/
def writeLoc16 (l : Loc Reg16) (v : Word) (s : State) : Out :=
  match l with
  | .reg r => .next (s.setReg r v)
  | .mem seg off => memWrite16 seg off v s

/-- Reads an 8-bit operand E. -/
def readRm8 (e : Rm8) (s : State) : Res Byte := readLoc8 (locate8 e s) s

/-- Reads a 16-bit operand E. -/
def readRm16 (e : Rm16) (s : State) : Res Word := readLoc16 (locate16 e s) s

/-- Reads the far pointer `Mp`: offset word, segment word (20_memory.md R93). -/
def readFar (m : MemOp) (s : State) : Res (Word × Word) := memReadFar (memAddr m s).1 (memAddr m s).2 s

/-- Reads E, computes a result and a state from it, and writes the result back at the same place (40_pipeline.md R211). -/
def modifyRm8 (e : Rm8) (f : Byte → State → Byte × State) (s : State) : Out :=
  thenWith (readRm8 e s) fun v t => writeLoc8 (locate8 e s) (f v t).1 (f v t).2

/-- As `modifyRm8`, for 16 bits. -/
def modifyRm16 (e : Rm16) (f : Word → State → Word × State) (s : State) : Out :=
  thenWith (readRm16 e s) fun v t => writeLoc16 (locate16 e s) (f v t).1 (f v t).2

end Sys2Proof.Machine
end

