-- ==== Sys2Proof/Machine/Alu.lean ====
section
/-! DEFINITION. The two-operand ALU operations and their operand forms: the operations of 42_arithmetic.md R304, with TEST, over the
forms E,G / G,E / accumulator,immediate / E,immediate, shared by Machine/Arithmetic.lean and Machine/Logic.lean. -/

namespace Sys2Proof.Machine

/-- The operations k = 0..7 of 42_arithmetic.md R304, and TEST (44_logic_shift.md R394). -/
inductive AluOp where
  | add | or | adc | sbb | and | sub | xor | cmp | test
deriving DecidableEq, Repr

/-- CMP and TEST write no operand (42_arithmetic.md R304, R314; 44_logic_shift.md R394). -/
def AluOp.writes : AluOp → Bool
  | .add | .or | .adc | .sbb | .and | .sub | .xor => true
  | .cmp | .test => false

/-- `logicFlags`: CF and OF 0, SF, ZF, PF from the result, AF a draw (44_logic_shift.md R390). -/
def logicFlags {w : Nat} (r : BitVec w) (s : State) : State :=
  (s.mapFlags fun v => putSZP r (putFlag .OF false (putFlag .CF false v))).freeFlag .AF

/-- The result of an operation on `a` (the destination) and `b` (the source), and the state with its flags (42_arithmetic.md R310-R314;
44_logic_shift.md R391-R394). -/
def aluApply {w : Nat} (op : AluOp) (a b : BitVec w) (s : State) : BitVec w × State :=
  match op with
  | .add => (addResult a b false, s.mapFlags (addFlags a b false))
  | .adc => (addResult a b (s.flag .CF), s.mapFlags (addFlags a b (s.flag .CF)))
  | .sub => (subResult a b false, s.mapFlags (subFlags a b false))
  | .sbb => (subResult a b (s.flag .CF), s.mapFlags (subFlags a b (s.flag .CF)))
  | .cmp => (subResult a b false, s.mapFlags (subFlags a b false))
  | .and => (a &&& b, logicFlags (a &&& b) s)
  | .or => (a ||| b, logicFlags (a ||| b) s)
  | .xor => (a ^^^ b, logicFlags (a ^^^ b) s)
  | .test => (a &&& b, logicFlags (a &&& b) s)

/-- Destination E, 8 bits; the source is a register or an immediate, read after E (42_arithmetic.md R304; 40_pipeline.md R211). -/
def aluRm8 (op : AluOp) (e : Rm8) (src : State → Byte) (s : State) : Out :=
  thenWith (readRm8 e s) fun a t =>
    let r := aluApply op a (src t) t
    if op.writes then writeLoc8 (locate8 e s) r.1 r.2 else .next r.2

/-- Destination E, 16 bits (42_arithmetic.md R304). -/
def aluRm16 (op : AluOp) (e : Rm16) (src : State → Word) (s : State) : Out :=
  thenWith (readRm16 e s) fun a t =>
    let r := aluApply op a (src t) t
    if op.writes then writeLoc16 (locate16 e s) r.1 r.2 else .next r.2

/-- Destination G, source E, 8 bits (42_arithmetic.md R304). -/
def aluReg8 (op : AluOp) (g : Reg8) (e : Rm8) (s : State) : Out :=
  thenWith (readRm8 e s) fun b t =>
    let r := aluApply op (s.reg8 g) b t
    .next (if op.writes then r.2.setReg8 g r.1 else r.2)

/-- Destination G, source E, 16 bits (42_arithmetic.md R304). -/
def aluReg16 (op : AluOp) (g : Reg16) (e : Rm16) (s : State) : Out :=
  thenWith (readRm16 e s) fun b t =>
    let r := aluApply op (s.reg g) b t
    .next (if op.writes then r.2.setReg g r.1 else r.2)

/-- Destination AL, source Ib (42_arithmetic.md R304). -/
def aluAcc8 (op : AluOp) (imm : Byte) (s : State) : Out :=
  let r := aluApply op (s.reg8 .al) imm s
  .next (if op.writes then r.2.setReg8 .al r.1 else r.2)

/-- Destination AX, source Iw (42_arithmetic.md R304). -/
def aluAcc16 (op : AluOp) (imm : Word) (s : State) : Out :=
  let r := aluApply op (s.reg .ax) imm s
  .next (if op.writes then r.2.setReg .ax r.1 else r.2)

end Sys2Proof.Machine
end

