-- ==== Sys2Proof/Machine/Arithmetic.lean ====
section
/-! DEFINITION. Arithmetic: ADD, ADC, SUB, SBB, CMP, INC, DEC, NEG, MUL, IMUL, DIV, IDIV (42_arithmetic.md R310-R326). -/

namespace Sys2Proof.Machine

/-! ### Add, subtract and compare (42_arithmetic.md R310-R314) -/

/-- ADD Eb, Gb (42_arithmetic.md R310). -/
def execAddEbGb (e : Rm8) (g : Reg8) (s : State) : Out := aluRm8 .add e (fun s => s.reg8 g) s

/-- ADD Ev, Gv (42_arithmetic.md R310). -/
def execAddEvGv (e : Rm16) (g : Reg16) (s : State) : Out := aluRm16 .add e (fun s => s.reg g) s

/-- ADD Gb, Eb (42_arithmetic.md R310). -/
def execAddGbEb (g : Reg8) (e : Rm8) (s : State) : Out := aluReg8 .add g e s

/-- ADD Gv, Ev (42_arithmetic.md R310). -/
def execAddGvEv (g : Reg16) (e : Rm16) (s : State) : Out := aluReg16 .add g e s

/-- ADD AL, Ib (42_arithmetic.md R310). -/
def execAddAlIb (imm : Byte) (s : State) : Out := aluAcc8 .add imm s

/-- ADD AX, Iw (42_arithmetic.md R310). -/
def execAddAxIw (imm : Word) (s : State) : Out := aluAcc16 .add imm s

/-- ADD Eb, Ib (42_arithmetic.md R310). -/
def execAddEbIb (e : Rm8) (imm : Byte) (s : State) : Out := aluRm8 .add e (fun _ => imm) s

/-- ADD Ev, Iw (42_arithmetic.md R310). -/
def execAddEvIw (e : Rm16) (imm : Word) (s : State) : Out := aluRm16 .add e (fun _ => imm) s

/-- ADD Ev, sIb (42_arithmetic.md R310). -/
def execAddEvSib (e : Rm16) (imm : Byte) (s : State) : Out := aluRm16 .add e (fun _ => sext16 imm) s

/-- ADC Eb, Gb (42_arithmetic.md R311). -/
def execAdcEbGb (e : Rm8) (g : Reg8) (s : State) : Out := aluRm8 .adc e (fun s => s.reg8 g) s

/-- ADC Ev, Gv (42_arithmetic.md R311). -/
def execAdcEvGv (e : Rm16) (g : Reg16) (s : State) : Out := aluRm16 .adc e (fun s => s.reg g) s

/-- ADC Gb, Eb (42_arithmetic.md R311). -/
def execAdcGbEb (g : Reg8) (e : Rm8) (s : State) : Out := aluReg8 .adc g e s

/-- ADC Gv, Ev (42_arithmetic.md R311). -/
def execAdcGvEv (g : Reg16) (e : Rm16) (s : State) : Out := aluReg16 .adc g e s

/-- ADC AL, Ib (42_arithmetic.md R311). -/
def execAdcAlIb (imm : Byte) (s : State) : Out := aluAcc8 .adc imm s

/-- ADC AX, Iw (42_arithmetic.md R311). -/
def execAdcAxIw (imm : Word) (s : State) : Out := aluAcc16 .adc imm s

/-- ADC Eb, Ib (42_arithmetic.md R311). -/
def execAdcEbIb (e : Rm8) (imm : Byte) (s : State) : Out := aluRm8 .adc e (fun _ => imm) s

/-- ADC Ev, Iw (42_arithmetic.md R311). -/
def execAdcEvIw (e : Rm16) (imm : Word) (s : State) : Out := aluRm16 .adc e (fun _ => imm) s

/-- ADC Ev, sIb (42_arithmetic.md R311). -/
def execAdcEvSib (e : Rm16) (imm : Byte) (s : State) : Out := aluRm16 .adc e (fun _ => sext16 imm) s

/-- SUB Eb, Gb (42_arithmetic.md R312). -/
def execSubEbGb (e : Rm8) (g : Reg8) (s : State) : Out := aluRm8 .sub e (fun s => s.reg8 g) s

/-- SUB Ev, Gv (42_arithmetic.md R312). -/
def execSubEvGv (e : Rm16) (g : Reg16) (s : State) : Out := aluRm16 .sub e (fun s => s.reg g) s

/-- SUB Gb, Eb (42_arithmetic.md R312). -/
def execSubGbEb (g : Reg8) (e : Rm8) (s : State) : Out := aluReg8 .sub g e s

/-- SUB Gv, Ev (42_arithmetic.md R312). -/
def execSubGvEv (g : Reg16) (e : Rm16) (s : State) : Out := aluReg16 .sub g e s

/-- SUB AL, Ib (42_arithmetic.md R312). -/
def execSubAlIb (imm : Byte) (s : State) : Out := aluAcc8 .sub imm s

/-- SUB AX, Iw (42_arithmetic.md R312). -/
def execSubAxIw (imm : Word) (s : State) : Out := aluAcc16 .sub imm s

/-- SUB Eb, Ib (42_arithmetic.md R312). -/
def execSubEbIb (e : Rm8) (imm : Byte) (s : State) : Out := aluRm8 .sub e (fun _ => imm) s

/-- SUB Ev, Iw (42_arithmetic.md R312). -/
def execSubEvIw (e : Rm16) (imm : Word) (s : State) : Out := aluRm16 .sub e (fun _ => imm) s

/-- SUB Ev, sIb (42_arithmetic.md R312). -/
def execSubEvSib (e : Rm16) (imm : Byte) (s : State) : Out := aluRm16 .sub e (fun _ => sext16 imm) s

/-- SBB Eb, Gb (42_arithmetic.md R313). -/
def execSbbEbGb (e : Rm8) (g : Reg8) (s : State) : Out := aluRm8 .sbb e (fun s => s.reg8 g) s

/-- SBB Ev, Gv (42_arithmetic.md R313). -/
def execSbbEvGv (e : Rm16) (g : Reg16) (s : State) : Out := aluRm16 .sbb e (fun s => s.reg g) s

/-- SBB Gb, Eb (42_arithmetic.md R313). -/
def execSbbGbEb (g : Reg8) (e : Rm8) (s : State) : Out := aluReg8 .sbb g e s

/-- SBB Gv, Ev (42_arithmetic.md R313). -/
def execSbbGvEv (g : Reg16) (e : Rm16) (s : State) : Out := aluReg16 .sbb g e s

/-- SBB AL, Ib (42_arithmetic.md R313). -/
def execSbbAlIb (imm : Byte) (s : State) : Out := aluAcc8 .sbb imm s

/-- SBB AX, Iw (42_arithmetic.md R313). -/
def execSbbAxIw (imm : Word) (s : State) : Out := aluAcc16 .sbb imm s

/-- SBB Eb, Ib (42_arithmetic.md R313). -/
def execSbbEbIb (e : Rm8) (imm : Byte) (s : State) : Out := aluRm8 .sbb e (fun _ => imm) s

/-- SBB Ev, Iw (42_arithmetic.md R313). -/
def execSbbEvIw (e : Rm16) (imm : Word) (s : State) : Out := aluRm16 .sbb e (fun _ => imm) s

/-- SBB Ev, sIb (42_arithmetic.md R313). -/
def execSbbEvSib (e : Rm16) (imm : Byte) (s : State) : Out := aluRm16 .sbb e (fun _ => sext16 imm) s

/-- CMP Eb, Gb (42_arithmetic.md R314). -/
def execCmpEbGb (e : Rm8) (g : Reg8) (s : State) : Out := aluRm8 .cmp e (fun s => s.reg8 g) s

/-- CMP Ev, Gv (42_arithmetic.md R314). -/
def execCmpEvGv (e : Rm16) (g : Reg16) (s : State) : Out := aluRm16 .cmp e (fun s => s.reg g) s

/-- CMP Gb, Eb (42_arithmetic.md R314). -/
def execCmpGbEb (g : Reg8) (e : Rm8) (s : State) : Out := aluReg8 .cmp g e s

/-- CMP Gv, Ev (42_arithmetic.md R314). -/
def execCmpGvEv (g : Reg16) (e : Rm16) (s : State) : Out := aluReg16 .cmp g e s

/-- CMP AL, Ib (42_arithmetic.md R314). -/
def execCmpAlIb (imm : Byte) (s : State) : Out := aluAcc8 .cmp imm s

/-- CMP AX, Iw (42_arithmetic.md R314). -/
def execCmpAxIw (imm : Word) (s : State) : Out := aluAcc16 .cmp imm s

/-- CMP Eb, Ib (42_arithmetic.md R314). -/
def execCmpEbIb (e : Rm8) (imm : Byte) (s : State) : Out := aluRm8 .cmp e (fun _ => imm) s

/-- CMP Ev, Iw (42_arithmetic.md R314). -/
def execCmpEvIw (e : Rm16) (imm : Word) (s : State) : Out := aluRm16 .cmp e (fun _ => imm) s

/-- CMP Ev, sIb (42_arithmetic.md R314). -/
def execCmpEvSib (e : Rm16) (imm : Byte) (s : State) : Out := aluRm16 .cmp e (fun _ => sext16 imm) s

/-! ### INC, DEC, NEG (42_arithmetic.md R315-R317) -/

/-- The result of INC and the state with its flags; CF gets the value `c` it had before the instruction (R315). -/
def incValue {w : Nat} (c : Bool) (v : BitVec w) (s : State) : BitVec w × State :=
  (addResult v 1 false, (s.mapFlags (addFlags v 1 false)).setFlag .CF c)

/-- The result of DEC and the state with its flags; CF gets the value `c` it had before the instruction (R316). -/
def decValue {w : Nat} (c : Bool) (v : BitVec w) (s : State) : BitVec w × State :=
  (subResult v 1 false, (s.mapFlags (subFlags v 1 false)).setFlag .CF c)

/-- The result of NEG, `sub_w(0, v, 0)`, and the state with its flags (R317). -/
def negValue {w : Nat} (v : BitVec w) (s : State) : BitVec w × State :=
  (subResult 0 v false, s.mapFlags (subFlags 0 v false))

/-- INC Eb (R315). -/
def execIncEb (e : Rm8) (s : State) : Out := modifyRm8 e (incValue (s.flag .CF)) s

/-- INC Ev (R315). -/
def execIncEv (e : Rm16) (s : State) : Out := modifyRm16 e (incValue (s.flag .CF)) s

/-- INC r16 (R315). -/
def execIncR16 (r : Reg16) (s : State) : Out := modifyRm16 (.reg r) (incValue (s.flag .CF)) s

/-- DEC Eb (R316). -/
def execDecEb (e : Rm8) (s : State) : Out := modifyRm8 e (decValue (s.flag .CF)) s

/-- DEC Ev (R316). -/
def execDecEv (e : Rm16) (s : State) : Out := modifyRm16 e (decValue (s.flag .CF)) s

/-- DEC r16 (R316). -/
def execDecR16 (r : Reg16) (s : State) : Out := modifyRm16 (.reg r) (decValue (s.flag .CF)) s

/-- NEG Eb (R317). -/
def execNegEb (e : Rm8) (s : State) : Out := modifyRm8 e negValue s

/-- NEG Ev (R317). -/
def execNegEv (e : Rm16) (s : State) : Out := modifyRm16 e negValue s

/-! ### Multiply (42_arithmetic.md R320, R321) -/

/-- CF and OF say that the high half carries information; SF, ZF, PF and AF are draws (R320, R321, D6). -/
def mulFlags (high : Bool) (s : State) : State :=
  ((s.setFlag .CF high).setFlag .OF high).freeFlags [.SF, .ZF, .PF, .AF]

/-- The 8-bit product goes to AX (R320, R321). -/
def setProduct8 (p : Word) (high : Bool) (s : State) : State := mulFlags high (s.setReg .ax p)

/-- The 16-bit product goes to DX:AX (R320, R321). -/
def setProduct16 (p : DWord) (high : Bool) (s : State) : State :=
  mulFlags high ((s.setReg .dx (p.extractLsb' 16 16)).setReg .ax (p.setWidth 16))

/-- MUL Eb (R320). -/
def execMulEb (e : Rm8) (s : State) : Out :=
  thenWith (readRm8 e s) fun v t =>
    let p : Word := zext16 (s.reg8 .al) * zext16 v
    .next (setProduct8 p (hiByte p != 0) t)

/-- MUL Ev (R320). -/
def execMulEv (e : Rm16) (s : State) : Out :=
  thenWith (readRm16 e s) fun v t =>
    let p : DWord := (s.reg .ax).setWidth 32 * v.setWidth 32
    .next (setProduct16 p (p.extractLsb' 16 16 != 0) t)

/-- IMUL Eb (R321). -/
def execImulEb (e : Rm8) (s : State) : Out :=
  thenWith (readRm8 e s) fun v t =>
    let p : Word := BitVec.ofInt 16 ((s.reg8 .al).toInt * v.toInt)
    .next (setProduct8 p (p != sext16 (loByte p)) t)

/-- IMUL Ev (R321). -/
def execImulEv (e : Rm16) (s : State) : Out :=
  thenWith (readRm16 e s) fun v t =>
    let p : DWord := BitVec.ofInt 32 ((s.reg .ax).toInt * v.toInt)
    .next (setProduct16 p (p != (p.setWidth 16).signExtend 32) t)

/-! ### Divide (42_arithmetic.md R322-R326) -/

/-- Quotient and remainder of an unsigned division; none on a zero divisor or a quotient above the limit (R322). -/
def divideUnsigned (n d limit : Nat) : Option (Nat × Nat) :=
  if d = 0 then none else if limit < n / d then none else some (n / d, n % d)

/-- Quotient, rounded toward zero, and remainder of a signed division; none on a zero divisor or a quotient outside `[-limit, limit]`
(R323). -/
def divideSigned (n d limit : Int) : Option (Int × Int) :=
  if d = 0 then none
  else if n.tdiv d < -limit ∨ limit < n.tdiv d then none
  else some (n.tdiv d, n - n.tdiv d * d)

/-- `negateQuotient()`: true when the last prefix byte of the step was a repeat byte, a draw when a repeat prefix is pending but another
prefix byte came after it (R326, D5). -/
def negatesQuotient (s : State) : Bool := s.rep && (s.lastPrefixRep || s.draw)

/-- The state after `negateQuotient()`: a draw is taken in the mixed case only (R326). -/
def afterNegate (s : State) : State := if s.rep && !s.lastPrefixRep then s.drawn else s

/-- The quotient IDIV packs (R326). -/
def packedQuotient (q : Int) (s : State) : Int := if negatesQuotient s then -q else q

/-- Quotient and remainder to AL and AH, the status flags cleared (R322, R323). -/
def setQuotient8 (q r : Byte) (s : State) : State := ((s.setReg8 .al q).setReg8 .ah r).mapFlags clearStatus

/-- Quotient and remainder to AX and DX, the status flags cleared (R322, R323). -/
def setQuotient16 (q r : Word) (s : State) : State := ((s.setReg .ax q).setReg .dx r).mapFlags clearStatus

/-- DX:AX (00_scope.md R11). -/
def dxAx (s : State) : DWord := s.reg .dx ++ s.reg .ax

/-- DIV Eb (R322): E is read before the dividend. -/
def execDivEb (e : Rm8) (s : State) : Out :=
  thenWith (readRm8 e s) fun d s =>
    match divideUnsigned (s.reg .ax).toNat d.toNat 0xFF with
    | none => divideFault s
    | some (q, r) => .next (setQuotient8 (BitVec.ofNat 8 q) (BitVec.ofNat 8 r) s)

/-- DIV Ev (R322): E is read before the dividend. -/
def execDivEv (e : Rm16) (s : State) : Out :=
  thenWith (readRm16 e s) fun d s =>
    match divideUnsigned (dxAx s).toNat d.toNat 0xFFFF with
    | none => divideFault s
    | some (q, r) => .next (setQuotient16 (BitVec.ofNat 16 q) (BitVec.ofNat 16 r) s)

/-- IDIV Eb (R323): the dividend is read before E. -/
def execIdivEb (e : Rm8) (s : State) : Out :=
  thenWith (readRm8 e s) fun d t =>
    match divideSigned (s.reg .ax).toInt d.toInt 127 with
    | none => divideFault t
    | some (q, r) => .next (setQuotient8 (BitVec.ofInt 8 (packedQuotient q t)) (BitVec.ofInt 8 r) (afterNegate t))

/-- IDIV Ev (R323): the dividend is read before E. -/
def execIdivEv (e : Rm16) (s : State) : Out :=
  thenWith (readRm16 e s) fun d t =>
    match divideSigned (dxAx s).toInt d.toInt 32767 with
    | none => divideFault t
    | some (q, r) => .next (setQuotient16 (BitVec.ofInt 16 (packedQuotient q t)) (BitVec.ofInt 16 r) (afterNegate t))

end Sys2Proof.Machine
end

