-- ==== Sys2Proof/Machine/Bcd.lean ====
section
/-! DEFINITION. The BCD adjustments: AAA, AAS, DAA, DAS, AAM, AAD (43_bcd.md R360-R365). -/

namespace Sys2Proof.Machine

/-- The low-digit correction applies: the low digit is above 9, or AF is set (43_bcd.md R360-R363). -/
def lowAdjust (al : Byte) (af : Bool) : Bool := decide (9 < (al &&& 0x0F).toNat) || af

/-- AAA and AAS: AL and AH move by 6 and 1 where the correction applies, AL keeps its low digit; AF and CF say whether it applied; OF, SF,
ZF and PF are draws (43_bcd.md R360, R361). -/
def asciiAdjust (al6 ah1 : Byte → Byte) (s : State) : Out :=
  let adj := lowAdjust (s.reg8 .al) (s.flag .AF)
  let al := if adj then al6 (s.reg8 .al) else s.reg8 .al
  let ah := if adj then ah1 (s.reg8 .ah) else s.reg8 .ah
  let s := ((s.setReg8 .ah ah).setFlag .AF adj).setFlag .CF adj
  .next ((s.setReg8 .al (al &&& 0x0F)).freeFlags [.OF, .SF, .ZF, .PF])

/-- AAA (43_bcd.md R360). -/
def execAaa (s : State) : Out := asciiAdjust (· + 6) (· + 1) s

/-- AAS (43_bcd.md R361). -/
def execAas (s : State) : Out := asciiAdjust (· - 6) (· - 1) s

/-- The band in which the high correction is a draw: AF = 1, CF = 0, AL in 0x9A..0x9F (43_bcd.md R362, R363; D7). -/
def drawBand (al : Byte) (af cf : Bool) : Bool := af && !cf && decide (0x9A ≤ al.toNat) && decide (al.toNat ≤ 0x9F)

/-- DAA and DAS: both corrections are decided on the old AL, CF and AF; SF, ZF and PF come from the final AL, and OF is a draw
(43_bcd.md R362, R363). -/
def decimalAdjust (move : Byte → Byte → Byte) (s : State) : Out :=
  let old := s.reg8 .al
  let low := lowAdjust old (s.flag .AF)
  let band := drawBand old (s.flag .AF) (s.flag .CF)
  let high := if band then s.draw else decide (0x99 < old.toNat) || s.flag .CF
  let s := if band then s.drawn else s
  let al := if low then move old 0x06 else old
  let al := if high then move al 0x60 else al
  let s := ((s.setReg8 .al al).setFlag .AF low).setFlag .CF high
  .next ((s.mapFlags (putSZP al)).freeFlags [.OF])

/-- DAA (43_bcd.md R362). -/
def execDaa (s : State) : Out := decimalAdjust (fun a b => a + b) s

/-- DAS (43_bcd.md R363). -/
def execDas (s : State) : Out := decimalAdjust (fun a b => a - b) s

/-- AAM: base 0 is a divide fault (43_bcd.md R364). -/
def execAam (base : Byte) (s : State) : Out :=
  if base = 0 then divideFault s
  else
    let al := s.reg8 .al % base
    let s := (s.setReg8 .ah (s.reg8 .al / base)).setReg8 .al al
    .next ((s.mapFlags (putSZP al)).freeFlags [.OF, .AF, .CF])

/-- AAD (43_bcd.md R365). -/
def execAad (base : Byte) (s : State) : Out :=
  let al := s.reg8 .al + s.reg8 .ah * base
  let s := (s.setReg8 .al al).setReg8 .ah 0
  .next ((s.mapFlags (putSZP al)).freeFlags [.OF, .AF, .CF])

end Sys2Proof.Machine
end

