-- ==== Sys2Proof/Machine/Control.lean ====
section
/-! DEFINITION. Control transfer: the conditional jumps, JMP, CALL, RET, RETF and the loops (46_control.md R470-R508). -/

namespace Sys2Proof.Machine

/-! ### Conditional jumps (46_control.md R470-R487) -/

/-- `target(rel)` of a rel8: from the IP of the next instruction (46_control.md R470). -/
def target8 (rel : Byte) (s : State) : Word := s.ip + sext16 rel

/-- `if COND: IP <- target(rel)` (46_control.md section 2). -/
def jumpIf (cond : Bool) (rel : Byte) (s : State) : Out := .next (if cond then s.setIp (target8 rel s) else s)

/-- JO (46_control.md R472). -/
def execJo (rel : Byte) (s : State) : Out := jumpIf (s.flag .OF) rel s

/-- JNO (46_control.md R473). -/
def execJno (rel : Byte) (s : State) : Out := jumpIf (!s.flag .OF) rel s

/-- JB (46_control.md R474). -/
def execJb (rel : Byte) (s : State) : Out := jumpIf (s.flag .CF) rel s

/-- JNB (46_control.md R475). -/
def execJnb (rel : Byte) (s : State) : Out := jumpIf (!s.flag .CF) rel s

/-- JE (46_control.md R476). -/
def execJe (rel : Byte) (s : State) : Out := jumpIf (s.flag .ZF) rel s

/-- JNE (46_control.md R477). -/
def execJne (rel : Byte) (s : State) : Out := jumpIf (!s.flag .ZF) rel s

/-- JBE (46_control.md R478). -/
def execJbe (rel : Byte) (s : State) : Out := jumpIf (s.flag .CF || s.flag .ZF) rel s

/-- JA (46_control.md R479). -/
def execJa (rel : Byte) (s : State) : Out := jumpIf (!s.flag .CF && !s.flag .ZF) rel s

/-- JS (46_control.md R480). -/
def execJs (rel : Byte) (s : State) : Out := jumpIf (s.flag .SF) rel s

/-- JNS (46_control.md R481). -/
def execJns (rel : Byte) (s : State) : Out := jumpIf (!s.flag .SF) rel s

/-- JP (46_control.md R482). -/
def execJp (rel : Byte) (s : State) : Out := jumpIf (s.flag .PF) rel s

/-- JNP (46_control.md R483). -/
def execJnp (rel : Byte) (s : State) : Out := jumpIf (!s.flag .PF) rel s

/-- JL (46_control.md R484). -/
def execJl (rel : Byte) (s : State) : Out := jumpIf (s.flag .SF != s.flag .OF) rel s

/-- JGE (46_control.md R485). -/
def execJge (rel : Byte) (s : State) : Out := jumpIf (s.flag .SF == s.flag .OF) rel s

/-- JLE (46_control.md R486). -/
def execJle (rel : Byte) (s : State) : Out := jumpIf (s.flag .ZF || s.flag .SF != s.flag .OF) rel s

/-- JG (46_control.md R487). -/
def execJg (rel : Byte) (s : State) : Out := jumpIf (!s.flag .ZF && s.flag .SF == s.flag .OF) rel s

/-! ### Unconditional jumps (46_control.md R490-R494) -/

/-- JMP rel8 (R490). -/
def execJmpRel8 (rel : Byte) (s : State) : Out := .next (s.setIp (target8 rel s))

/-- JMP rel16 (R491). -/
def execJmpRel16 (rel : Word) (s : State) : Out := .next (s.setIp (s.ip + rel))

/-- JMP ptr16:16 (R492). -/
def execJmpAp (off sg : Word) (s : State) : Out := .next ((s.setIp off).setSReg .cs sg)

/-- JMP Ev (R493). -/
def execJmpEv (e : Rm16) (s : State) : Out := thenWith (readRm16 e s) fun v s => .next (s.setIp v)

/-- JMP Mp (R494). -/
def execJmpMp (m : MemOp) (s : State) : Out :=
  thenWith (readFar m s) fun p s => .next ((s.setIp p.1).setSReg .cs p.2)

/-! ### Calls (46_control.md R495-R498) -/

/-- CALL rel16 (R495). -/
def execCallRel16 (rel : Word) (s : State) : Out := thenDo (push16 s.ip s) fun s => .next (s.setIp (s.ip + rel))

/-- Pushes CS and IP, then goes to `sg:off` (R496, R498). -/
def callFar (off sg : Word) (s : State) : Out :=
  thenDo (push16 (s.sreg .cs) s) fun s => thenDo (push16 s.ip s) fun s => .next ((s.setSReg .cs sg).setIp off)

/-- CALL ptr16:16 (R496). -/
def execCallAp (off sg : Word) (s : State) : Out := callFar off sg s

/-- CALL Ev: the target is read before the push (R497). -/
def execCallEv (e : Rm16) (s : State) : Out :=
  thenWith (readRm16 e s) fun v s => thenDo (push16 s.ip s) fun s => .next (s.setIp v)

/-- CALL Mp (R498). -/
def execCallMp (m : MemOp) (s : State) : Out := thenWith (readFar m s) fun p s => callFar p.1 p.2 s

/-! ### Returns (46_control.md R500-R503) -/

/-- `SP <- (SP + n) mod 0x10000` (R501, R503). -/
def release (n : Word) (s : State) : State := s.setReg .sp (s.reg .sp + n)

/-- `IP <- Pop16()`, then `n` bytes are released (R500, R501). -/
def returnNear (n : Word) (s : State) : Out := thenWith (pop16 s) fun v s => .next (release n (s.setIp v))

/-- `IP <- Pop16(); CS <- Pop16()`, then `n` bytes are released (R502, R503). -/
def returnFar (n : Word) (s : State) : Out :=
  thenWith (pop16 s) fun v s => thenWith (pop16 (s.setIp v)) fun v s => .next (release n (s.setSReg .cs v))

/-- RET (R500). -/
def execRet (s : State) : Out := returnNear 0 s

/-- RET Iw (R501). -/
def execRetIw (imm : Word) (s : State) : Out := returnNear imm s

/-- RETF (R502). -/
def execRetf (s : State) : Out := returnFar 0 s

/-- RETF Iw (R503). -/
def execRetfIw (imm : Word) (s : State) : Out := returnFar imm s

/-! ### Loops (46_control.md R505-R508) -/

/-- `CX <- (CX - 1) mod 0x10000` (R505-R507). -/
def countDown (s : State) : State := s.setReg .cx (s.reg .cx - 1)

/-- LOOP (R505). -/
def execLoop (rel : Byte) (s : State) : Out := jumpIf ((countDown s).reg .cx != 0) rel (countDown s)

/-- LOOPE (R506). -/
def execLoope (rel : Byte) (s : State) : Out := jumpIf ((countDown s).reg .cx != 0 && s.flag .ZF) rel (countDown s)

/-- LOOPNE (R507). -/
def execLoopne (rel : Byte) (s : State) : Out := jumpIf ((countDown s).reg .cx != 0 && !s.flag .ZF) rel (countDown s)

/-- JCXZ (R508). -/
def execJcxz (rel : Byte) (s : State) : Out := jumpIf (s.reg .cx == 0) rel s

end Sys2Proof.Machine
end

