-- ==== Sys2Proof/Machine/DataTransfer.lean ====
section
/-! DEFINITION. Data transfer: MOV, PUSH, POP, PUSHF, POPF, XCHG, NOP, XLAT, LEA, LDS, LES, LAHF, SAHF, CBW, CWD, IN, OUT
(41_data_transfer.md R240-R281). -/

namespace Sys2Proof.Machine

/-! ### MOV (41_data_transfer.md R241-R246) -/

/-- MOV Eb, Gb (R241). -/
def execMovEbGb (e : Rm8) (g : Reg8) (s : State) : Out := writeLoc8 (locate8 e s) (s.reg8 g) s

/-- MOV Ev, Gv (R241). -/
def execMovEvGv (e : Rm16) (g : Reg16) (s : State) : Out := writeLoc16 (locate16 e s) (s.reg g) s

/-- MOV Gb, Eb (R241). -/
def execMovGbEb (g : Reg8) (e : Rm8) (s : State) : Out :=
  thenWith (readRm8 e s) fun v s => .next (s.setReg8 g v)

/-- MOV Gv, Ev (R241). -/
def execMovGvEv (g : Reg16) (e : Rm16) (s : State) : Out :=
  thenWith (readRm16 e s) fun v s => .next (s.setReg g v)

/-- MOV Eb, Ib (R242). -/
def execMovEbIb (e : Rm8) (imm : Byte) (s : State) : Out := writeLoc8 (locate8 e s) imm s

/-- MOV Ev, Iw (R242). -/
def execMovEvIw (e : Rm16) (imm : Word) (s : State) : Out := writeLoc16 (locate16 e s) imm s

/-- MOV r8, Ib (R243). -/
def execMovR8Ib (r : Reg8) (imm : Byte) (s : State) : Out := .next (s.setReg8 r imm)

/-- MOV r16, Iw (R243). -/
def execMovR16Iw (r : Reg16) (imm : Word) (s : State) : Out := .next (s.setReg r imm)

/-- MOV AL, Ob (R244). -/
def execMovAlOb (off : Word) (s : State) : Out :=
  thenWith (memRead8 (segOr .ds s) off s) fun v s => .next (s.setReg8 .al v)

/-- MOV AX, Ov (R244). -/
def execMovAxOv (off : Word) (s : State) : Out :=
  thenWith (memRead16 (segOr .ds s) off s) fun v s => .next (s.setReg .ax v)

/-- MOV Ob, AL (R244). -/
def execMovObAl (off : Word) (s : State) : Out := memWrite8 (segOr .ds s) off (s.reg8 .al) s

/-- MOV Ov, AX (R244). -/
def execMovOvAx (off : Word) (s : State) : Out := memWrite16 (segOr .ds s) off (s.reg .ax) s

/-- MOV Ew, Sw (R245). -/
def execMovEwSw (e : Rm16) (sr : SReg) (s : State) : Out := writeLoc16 (locate16 e s) (s.sreg sr) s

/-- `S <- read(E)` (R246). -/
def loadSReg (r : SReg) (e : Rm16) (s : State) : Out :=
  thenWith (readRm16 e s) fun v s => .next (s.setSReg r v)

/-- MOV ES, Ew (R246). -/
def execMovEsEw (e : Rm16) (s : State) : Out := loadSReg .es e s

/-- MOV SS, Ew (R246). -/
def execMovSsEw (e : Rm16) (s : State) : Out := loadSReg .ss e s

/-- MOV DS, Ew (R246). -/
def execMovDsEw (e : Rm16) (s : State) : Out := loadSReg .ds e s

/-! ### The stack (41_data_transfer.md R252-R259) -/

/-- The value `PUSH r16` stores: for SP the decremented value (R252). -/
def pushedReg (r : Reg16) (s : State) : Word := if r = .sp then s.reg .sp - 2 else s.reg r

/-- PUSH r16 (R252). -/
def execPushR16 (r : Reg16) (s : State) : Out := push16 (pushedReg r s) s

/-- PUSH ES (R253). -/
def execPushEs (s : State) : Out := push16 (s.sreg .es) s

/-- PUSH CS (R253). -/
def execPushCs (s : State) : Out := push16 (s.sreg .cs) s

/-- PUSH SS (R253). -/
def execPushSs (s : State) : Out := push16 (s.sreg .ss) s

/-- PUSH DS (R253). -/
def execPushDs (s : State) : Out := push16 (s.sreg .ds) s

/-- PUSH Ev (R254). `FF F4` pushes the old or the decremented SP, a draw between the two (D26). -/
def execPushEv (e : Rm16) (s : State) : Out :=
  if e = .reg .sp then push16 (if s.draw then s.reg .sp else s.reg .sp - 2) s.drawn
  else thenWith (readRm16 e s) fun v s => push16 v s

/-- POP r16 (R255). -/
def execPopR16 (r : Reg16) (s : State) : Out := thenWith (pop16 s) fun v s => .next (s.setReg r v)

/-- `S <- Pop16()` (R256). -/
def popSReg (r : SReg) (s : State) : Out := thenWith (pop16 s) fun v s => .next (s.setSReg r v)

/-- POP ES (R256). -/
def execPopEs (s : State) : Out := popSReg .es s

/-- POP SS (R256). -/
def execPopSs (s : State) : Out := popSReg .ss s

/-- POP DS (R256). -/
def execPopDs (s : State) : Out := popSReg .ds s

/-- POP Ev: the address was resolved before the pop (R257). -/
def execPopEv (e : Rm16) (s : State) : Out := thenWith (pop16 s) fun v t => writeLoc16 (locate16 e s) v t

/-- PUSHF (R258). -/
def execPushf (s : State) : Out := push16 s.flags16 s

/-- POPF (R259). -/
def execPopf (s : State) : Out := thenWith (pop16 s) fun v s => .next (s.setFlags16 v)

/-! ### Exchange (41_data_transfer.md R260-R262) -/

/-- XCHG Eb, Gb (R260). -/
def execXchgEbGb (e : Rm8) (g : Reg8) (s : State) : Out :=
  thenWith (readRm8 e s) fun v t => thenDo (writeLoc8 (locate8 e s) (t.reg8 g) t) fun u => .next (u.setReg8 g v)

/-- XCHG Ev, Gv (R260). -/
def execXchgEvGv (e : Rm16) (g : Reg16) (s : State) : Out :=
  thenWith (readRm16 e s) fun v t => thenDo (writeLoc16 (locate16 e s) (t.reg g) t) fun u => .next (u.setReg g v)

/-- XCHG AX, r16 (R261). -/
def execXchgAxR16 (r : Reg16) (s : State) : Out := .next ((s.setReg .ax (s.reg r)).setReg r (s.reg .ax))

/-- NOP (R262). -/
def execNop (s : State) : Out := .next s

/-! ### Table lookup and address loads (41_data_transfer.md R265-R268) -/

/-- XLAT (R265). -/
def execXlat (s : State) : Out :=
  thenWith (memRead8 (segOr .ds s) (s.reg .bx + zext16 (s.reg8 .al)) s) fun v s => .next (s.setReg8 .al v)

/-- LEA (R266): the offset, no memory access. -/
def execLeaGvM (g : Reg16) (m : MemOp) (s : State) : Out := .next (s.setReg g (memAddr m s).2)

/-- `p <- MemRead(seg_E, ea_E, 4); G <- p[15:0]; S <- p[31:16]` (R267, R268). -/
def loadFar (r : SReg) (g : Reg16) (m : MemOp) (s : State) : Out :=
  thenWith (readFar m s) fun p s => .next ((s.setReg g p.1).setSReg r p.2)

/-- LDS (R267). -/
def execLdsGvMp (g : Reg16) (m : MemOp) (s : State) : Out := loadFar .ds g m s

/-- LES (R268). -/
def execLesGvMp (g : Reg16) (m : MemOp) (s : State) : Out := loadFar .es g m s

/-! ### Flags transfer and conversions (41_data_transfer.md R270-R276) -/

/-- LAHF (R270). -/
def execLahf (s : State) : Out := .next (s.setReg8 .ah s.flags8)

/-- SAHF (R271). -/
def execSahf (s : State) : Out := .next (s.setFlags16 ((s.flags16 &&& 0xFF00) ||| zext16 (s.reg8 .ah)))

/-- CBW (R275). -/
def execCbw (s : State) : Out := .next (s.setReg .ax (sext16 (s.reg8 .al)))

/-- CWD (R276). -/
def execCwd (s : State) : Out := .next (s.setReg .dx (if (s.reg .ax).msb then 0xFFFF else 0x0000))

/-! ### Ports (41_data_transfer.md R280, R281) -/

/-- `AL <- PortRead(port, 1)` (R280). -/
def in8 (port : Word) (s : State) : Out :=
  thenWith (portRead (.portRead8 port) s) fun v s => .next (s.setReg8 .al (loByte v))

/-- `AX <- PortRead(port, 2)` (R280). -/
def in16 (port : Word) (s : State) : Out :=
  thenWith (portRead (.portRead16 port) s) fun v s => .next (s.setReg .ax v)

/-- `PortWrite(port, 1, AL)` (R281). -/
def out8 (port : Word) (s : State) : Out := callHost (.portWrite8 port (s.reg8 .al)) s

/-- `PortWrite(port, 2, AX)` (R281). -/
def out16 (port : Word) (s : State) : Out := callHost (.portWrite16 port (s.reg .ax)) s

/-- IN AL, Ib (R280). -/
def execInAlIb (port : Byte) (s : State) : Out := in8 (zext16 port) s

/-- IN AX, Ib (R280). -/
def execInAxIb (port : Byte) (s : State) : Out := in16 (zext16 port) s

/-- IN AL, DX (R280). -/
def execInAlDx (s : State) : Out := in8 (s.reg .dx) s

/-- IN AX, DX (R280). -/
def execInAxDx (s : State) : Out := in16 (s.reg .dx) s

/-- OUT Ib, AL (R281). -/
def execOutIbAl (port : Byte) (s : State) : Out := out8 (zext16 port) s

/-- OUT Ib, AX (R281). -/
def execOutIbAx (port : Byte) (s : State) : Out := out16 (zext16 port) s

/-- OUT DX, AL (R281). -/
def execOutDxAl (s : State) : Out := out8 (s.reg .dx) s

/-- OUT DX, AX (R281). -/
def execOutDxAx (s : State) : Out := out16 (s.reg .dx) s

end Sys2Proof.Machine
end

