-- ==== Sys2Proof/Machine/Invalid.lean ====
section
/-! DEFINITION. The `(invalid)` rows: the report to the host (40_pipeline.md R215, R216; 30_encoding.md R170). The fetch has moved IP past
the bytes R216 names; nothing else changes, and the host decides whether the run goes on. -/

namespace Sys2Proof.Machine

/-- `raise InvalidOpcode`: `host.invalidOpcode(message)` with the bytes of the step, then the step ends (40_pipeline.md R215; D38). -/
def invalidOpcode (s : State) : Out := callHost (.invalidOpcode s.stepBytes) s

/-- 0x60-0x6F (Jcc aliases on an 8086) (30_encoding.md R170). -/
def execInv60 (_lo : BitVec 4) (s : State) : Out := invalidOpcode s

/-- 0x8C with reg 4-7 (30_encoding.md R170). -/
def execInv8C (_r : BitVec 2) (_e : Rm16) (s : State) : Out := invalidOpcode s

/-- LEA with mod=3 (30_encoding.md R170). -/
def execInv8D (_g : Reg16) (_r : Reg16) (s : State) : Out := invalidOpcode s

/-- MOV CS, Ew (30_encoding.md R170). -/
def execInv8Ecs (_e : Rm16) (s : State) : Out := invalidOpcode s

/-- 0x8E with reg 4-7 (30_encoding.md R170). -/
def execInv8E (_r : BitVec 2) (_e : Rm16) (s : State) : Out := invalidOpcode s

/-- 0x8F with reg 1-7 (fallback row) (30_encoding.md R170). -/
def execInv8F (_r : BitVec 3) (_e : Rm16) (s : State) : Out := invalidOpcode s

/-- LES with mod=3 (30_encoding.md R170). -/
def execInvC4 (_g : Reg16) (_r : Reg16) (s : State) : Out := invalidOpcode s

/-- LDS with mod=3 (30_encoding.md R170). -/
def execInvC5 (_g : Reg16) (_r : Reg16) (s : State) : Out := invalidOpcode s

/-- 0xC6 with reg 1-7 (fallback row) (30_encoding.md R170). -/
def execInvC6 (_r : BitVec 3) (_e : Rm8) (s : State) : Out := invalidOpcode s

/-- 0xC7 with reg 1-7 (fallback row) (30_encoding.md R170). -/
def execInvC7 (_r : BitVec 3) (_e : Rm16) (s : State) : Out := invalidOpcode s

/-- 0xD0 /6 (SETMO/SETMOC on an 8086) (30_encoding.md R170). -/
def execInvD0r6 (_e : Rm8) (s : State) : Out := invalidOpcode s

/-- 0xD1 /6 (SETMO/SETMOC on an 8086) (30_encoding.md R170). -/
def execInvD1r6 (_e : Rm16) (s : State) : Out := invalidOpcode s

/-- 0xD2 /6 (SETMO/SETMOC on an 8086) (30_encoding.md R170). -/
def execInvD2r6 (_e : Rm8) (s : State) : Out := invalidOpcode s

/-- 0xD3 /6 (SETMO/SETMOC on an 8086) (30_encoding.md R170). -/
def execInvD3r6 (_e : Rm16) (s : State) : Out := invalidOpcode s

/-- 0xF6 /1 (TEST alias on an 8086) (30_encoding.md R170). -/
def execInvF6r1 (_e : Rm8) (s : State) : Out := invalidOpcode s

/-- 0xF7 /1 (TEST alias on an 8086) (30_encoding.md R170). -/
def execInvF7r1 (_e : Rm16) (s : State) : Out := invalidOpcode s

/-- 0xFE with reg 2-7 (fallback row) (30_encoding.md R170). -/
def execInvFE (_r : BitVec 3) (_e : Rm8) (s : State) : Out := invalidOpcode s

/-- CALL far with mod=3 (30_encoding.md R170). -/
def execInvFFr3 (_r : Reg16) (s : State) : Out := invalidOpcode s

/-- JMP far with mod=3 (30_encoding.md R170). -/
def execInvFFr5 (_r : Reg16) (s : State) : Out := invalidOpcode s

/-- 0xFF /7 (PUSH alias on an 8086) (30_encoding.md R170). -/
def execInvFFr7 (_e : Rm16) (s : State) : Out := invalidOpcode s

/-- POP CS on an 8086 (30_encoding.md R170). -/
def execInv0F (s : State) : Out := invalidOpcode s

/-- 0x82 (alias of 0x80 on an 8086) (30_encoding.md R170). -/
def execInv82 (s : State) : Out := invalidOpcode s

/-- 0xC0 (alias of 0xC2 on an 8086) (30_encoding.md R170). -/
def execInvC0 (s : State) : Out := invalidOpcode s

/-- 0xC1 (alias of 0xC3 on an 8086) (30_encoding.md R170). -/
def execInvC1 (s : State) : Out := invalidOpcode s

/-- 0xC8 (alias of 0xCA on an 8086) (30_encoding.md R170). -/
def execInvC8 (s : State) : Out := invalidOpcode s

/-- 0xC9 (alias of 0xCB on an 8086) (30_encoding.md R170). -/
def execInvC9 (s : State) : Out := invalidOpcode s

/-- 0xD6 (SALC on an 8086) (30_encoding.md R170). -/
def execInvD6 (s : State) : Out := invalidOpcode s

/-- 0xF1 (alias of LOCK on an 8086) (30_encoding.md R170). -/
def execInvF1 (s : State) : Out := invalidOpcode s

end Sys2Proof.Machine
end

