-- ==== Sys2Proof/Machine/Logic.lean ====
section
/-! DEFINITION. Logic: AND, OR, XOR, TEST, NOT (44_logic_shift.md R390-R395). -/

namespace Sys2Proof.Machine

/-- AND Eb, Gb (44_logic_shift.md R391). -/
def execAndEbGb (e : Rm8) (g : Reg8) (s : State) : Out := aluRm8 .and e (fun s => s.reg8 g) s

/-- AND Ev, Gv (44_logic_shift.md R391). -/
def execAndEvGv (e : Rm16) (g : Reg16) (s : State) : Out := aluRm16 .and e (fun s => s.reg g) s

/-- AND Gb, Eb (44_logic_shift.md R391). -/
def execAndGbEb (g : Reg8) (e : Rm8) (s : State) : Out := aluReg8 .and g e s

/-- AND Gv, Ev (44_logic_shift.md R391). -/
def execAndGvEv (g : Reg16) (e : Rm16) (s : State) : Out := aluReg16 .and g e s

/-- AND AL, Ib (44_logic_shift.md R391). -/
def execAndAlIb (imm : Byte) (s : State) : Out := aluAcc8 .and imm s

/-- AND AX, Iw (44_logic_shift.md R391). -/
def execAndAxIw (imm : Word) (s : State) : Out := aluAcc16 .and imm s

/-- AND Eb, Ib (44_logic_shift.md R391). -/
def execAndEbIb (e : Rm8) (imm : Byte) (s : State) : Out := aluRm8 .and e (fun _ => imm) s

/-- AND Ev, Iw (44_logic_shift.md R391). -/
def execAndEvIw (e : Rm16) (imm : Word) (s : State) : Out := aluRm16 .and e (fun _ => imm) s

/-- AND Ev, sIb (44_logic_shift.md R391). -/
def execAndEvSib (e : Rm16) (imm : Byte) (s : State) : Out := aluRm16 .and e (fun _ => sext16 imm) s

/-- OR Eb, Gb (44_logic_shift.md R392). -/
def execOrEbGb (e : Rm8) (g : Reg8) (s : State) : Out := aluRm8 .or e (fun s => s.reg8 g) s

/-- OR Ev, Gv (44_logic_shift.md R392). -/
def execOrEvGv (e : Rm16) (g : Reg16) (s : State) : Out := aluRm16 .or e (fun s => s.reg g) s

/-- OR Gb, Eb (44_logic_shift.md R392). -/
def execOrGbEb (g : Reg8) (e : Rm8) (s : State) : Out := aluReg8 .or g e s

/-- OR Gv, Ev (44_logic_shift.md R392). -/
def execOrGvEv (g : Reg16) (e : Rm16) (s : State) : Out := aluReg16 .or g e s

/-- OR AL, Ib (44_logic_shift.md R392). -/
def execOrAlIb (imm : Byte) (s : State) : Out := aluAcc8 .or imm s

/-- OR AX, Iw (44_logic_shift.md R392). -/
def execOrAxIw (imm : Word) (s : State) : Out := aluAcc16 .or imm s

/-- OR Eb, Ib (44_logic_shift.md R392). -/
def execOrEbIb (e : Rm8) (imm : Byte) (s : State) : Out := aluRm8 .or e (fun _ => imm) s

/-- OR Ev, Iw (44_logic_shift.md R392). -/
def execOrEvIw (e : Rm16) (imm : Word) (s : State) : Out := aluRm16 .or e (fun _ => imm) s

/-- OR Ev, sIb (44_logic_shift.md R392). -/
def execOrEvSib (e : Rm16) (imm : Byte) (s : State) : Out := aluRm16 .or e (fun _ => sext16 imm) s

/-- XOR Eb, Gb (44_logic_shift.md R393). -/
def execXorEbGb (e : Rm8) (g : Reg8) (s : State) : Out := aluRm8 .xor e (fun s => s.reg8 g) s

/-- XOR Ev, Gv (44_logic_shift.md R393). -/
def execXorEvGv (e : Rm16) (g : Reg16) (s : State) : Out := aluRm16 .xor e (fun s => s.reg g) s

/-- XOR Gb, Eb (44_logic_shift.md R393). -/
def execXorGbEb (g : Reg8) (e : Rm8) (s : State) : Out := aluReg8 .xor g e s

/-- XOR Gv, Ev (44_logic_shift.md R393). -/
def execXorGvEv (g : Reg16) (e : Rm16) (s : State) : Out := aluReg16 .xor g e s

/-- XOR AL, Ib (44_logic_shift.md R393). -/
def execXorAlIb (imm : Byte) (s : State) : Out := aluAcc8 .xor imm s

/-- XOR AX, Iw (44_logic_shift.md R393). -/
def execXorAxIw (imm : Word) (s : State) : Out := aluAcc16 .xor imm s

/-- XOR Eb, Ib (44_logic_shift.md R393). -/
def execXorEbIb (e : Rm8) (imm : Byte) (s : State) : Out := aluRm8 .xor e (fun _ => imm) s

/-- XOR Ev, Iw (44_logic_shift.md R393). -/
def execXorEvIw (e : Rm16) (imm : Word) (s : State) : Out := aluRm16 .xor e (fun _ => imm) s

/-- XOR Ev, sIb (44_logic_shift.md R393). -/
def execXorEvSib (e : Rm16) (imm : Byte) (s : State) : Out := aluRm16 .xor e (fun _ => sext16 imm) s

/-- TEST Eb, Gb (44_logic_shift.md R394). -/
def execTestEbGb (e : Rm8) (g : Reg8) (s : State) : Out := aluRm8 .test e (fun s => s.reg8 g) s

/-- TEST Ev, Gv (44_logic_shift.md R394). -/
def execTestEvGv (e : Rm16) (g : Reg16) (s : State) : Out := aluRm16 .test e (fun s => s.reg g) s

/-- TEST AL, Ib (44_logic_shift.md R394). -/
def execTestAlIb (imm : Byte) (s : State) : Out := aluAcc8 .test imm s

/-- TEST AX, Iw (44_logic_shift.md R394). -/
def execTestAxIw (imm : Word) (s : State) : Out := aluAcc16 .test imm s

/-- TEST Eb, Ib (44_logic_shift.md R394). -/
def execTestEbIb (e : Rm8) (imm : Byte) (s : State) : Out := aluRm8 .test e (fun _ => imm) s

/-- TEST Ev, Iw (44_logic_shift.md R394). -/
def execTestEvIw (e : Rm16) (imm : Word) (s : State) : Out := aluRm16 .test e (fun _ => imm) s

/-- NOT Eb: no flags (44_logic_shift.md R395). -/
def execNotEb (e : Rm8) (s : State) : Out := modifyRm8 e (fun v t => (v ^^^ 0xFF, t)) s

/-- NOT Ev: no flags (44_logic_shift.md R395). -/
def execNotEv (e : Rm16) (s : State) : Out := modifyRm16 e (fun v t => (v ^^^ 0xFFFF, t)) s

end Sys2Proof.Machine
end

