-- ==== Sys2Proof/Machine/Prefixes.lean ====
section
/-! DEFINITION. The prefix instructions: segment overrides, REP, REPNE and LOCK (40_pipeline.md R203-R207). Each sets its transient
field; the step goes on with the next byte (Machine/Step.lean). -/

namespace Sys2Proof.Machine

/-- A segment override sets the pending override (40_pipeline.md R203); it is no repeat byte (42_arithmetic.md R326). -/
def overridePrefix (r : SReg) (s : State) : Out := .next { s with segOverride := some r, lastPrefixRep := false }

/-- A repeat byte sets `repeat` and `repeatWhile` (40_pipeline.md R204). -/
def repeatPrefix (whileZf : Bool) (s : State) : Out :=
  .next { s with rep := true, repeatWhile := whileZf, lastPrefixRep := true }

/-- ES: (40_pipeline.md R203). -/
def execSegEs (s : State) : Out := overridePrefix .es s

/-- CS: (40_pipeline.md R203). -/
def execSegCs (s : State) : Out := overridePrefix .cs s

/-- SS: (40_pipeline.md R203). -/
def execSegSs (s : State) : Out := overridePrefix .ss s

/-- DS: (40_pipeline.md R203). -/
def execSegDs (s : State) : Out := overridePrefix .ds s

/-- REPNE, 0xF2: continue while ZF = 0 (40_pipeline.md R204). -/
def execRepne (s : State) : Out := repeatPrefix false s

/-- REP/REPE, 0xF3: continue while ZF = 1 (40_pipeline.md R204). -/
def execRep (s : State) : Out := repeatPrefix true s

/-- LOCK has no effect (40_pipeline.md R207; D10); it comes after a repeat byte as any other prefix does (42_arithmetic.md R326). -/
def execLock (s : State) : Out := .next { s with lastPrefixRep := false }

/-- The instructions that continue the prefix chain (30_encoding.md R131; 40_pipeline.md R205). -/
def isPrefix : Instr → Bool
  | .segEs | .segCs | .segSs | .segDs | .lock | .repne | .rep => true
  | _ => false

end Sys2Proof.Machine
end

