-- ==== Sys2Proof/Machine/Shift.lean ====
section
/-! DEFINITION. Shifts and rotates: ROL, ROR, RCL, RCR, SHL, SHR, SAR by 1 or CL (44_logic_shift.md R400-R408). -/

namespace Sys2Proof.Machine

/-- The common rule (44_logic_shift.md R400): with count 0 the operand and the flags keep their values; else `count` steps, and for the
shifts SF, ZF, PF from the result and AF a draw. -/
def shiftValue {w : Nat} (op : ShiftOp) (count : Nat) (v : BitVec w) (s : State) : BitVec w × State :=
  if count = 0 then (v, s)
  else
    let p := shiftSteps op count (v, s.flags)
    let t := { s with flags := p.2 }
    (p.1, if op.isShift then (t.mapFlags (putSZP p.1)).freeFlag .AF else t)

/-- An operation on Eb; the operand is written back even with count 0 (44_logic_shift.md R400, D9). -/
def shiftRm8 (op : ShiftOp) (count : Nat) (e : Rm8) (s : State) : Out := modifyRm8 e (shiftValue op count) s

/-- An operation on Ev (44_logic_shift.md R400). -/
def shiftRm16 (op : ShiftOp) (count : Nat) (e : Rm16) (s : State) : Out := modifyRm16 e (shiftValue op count) s

/-- The count of the CL forms: all 8 bits of CL (44_logic_shift.md R400). -/
def clCount (s : State) : Nat := (s.reg8 .cl).toNat

/-- ROL Eb, 1 (44_logic_shift.md R401). -/
def execRolEb1 (e : Rm8) (s : State) : Out := shiftRm8 .rol 1 e s

/-- ROL Eb, CL (44_logic_shift.md R401). -/
def execRolEbCl (e : Rm8) (s : State) : Out := shiftRm8 .rol (clCount s) e s

/-- ROL Ev, 1 (44_logic_shift.md R401). -/
def execRolEv1 (e : Rm16) (s : State) : Out := shiftRm16 .rol 1 e s

/-- ROL Ev, CL (44_logic_shift.md R401). -/
def execRolEvCl (e : Rm16) (s : State) : Out := shiftRm16 .rol (clCount s) e s

/-- ROR Eb, 1 (44_logic_shift.md R402). -/
def execRorEb1 (e : Rm8) (s : State) : Out := shiftRm8 .ror 1 e s

/-- ROR Eb, CL (44_logic_shift.md R402). -/
def execRorEbCl (e : Rm8) (s : State) : Out := shiftRm8 .ror (clCount s) e s

/-- ROR Ev, 1 (44_logic_shift.md R402). -/
def execRorEv1 (e : Rm16) (s : State) : Out := shiftRm16 .ror 1 e s

/-- ROR Ev, CL (44_logic_shift.md R402). -/
def execRorEvCl (e : Rm16) (s : State) : Out := shiftRm16 .ror (clCount s) e s

/-- RCL Eb, 1 (44_logic_shift.md R403). -/
def execRclEb1 (e : Rm8) (s : State) : Out := shiftRm8 .rcl 1 e s

/-- RCL Eb, CL (44_logic_shift.md R403). -/
def execRclEbCl (e : Rm8) (s : State) : Out := shiftRm8 .rcl (clCount s) e s

/-- RCL Ev, 1 (44_logic_shift.md R403). -/
def execRclEv1 (e : Rm16) (s : State) : Out := shiftRm16 .rcl 1 e s

/-- RCL Ev, CL (44_logic_shift.md R403). -/
def execRclEvCl (e : Rm16) (s : State) : Out := shiftRm16 .rcl (clCount s) e s

/-- RCR Eb, 1 (44_logic_shift.md R404). -/
def execRcrEb1 (e : Rm8) (s : State) : Out := shiftRm8 .rcr 1 e s

/-- RCR Eb, CL (44_logic_shift.md R404). -/
def execRcrEbCl (e : Rm8) (s : State) : Out := shiftRm8 .rcr (clCount s) e s

/-- RCR Ev, 1 (44_logic_shift.md R404). -/
def execRcrEv1 (e : Rm16) (s : State) : Out := shiftRm16 .rcr 1 e s

/-- RCR Ev, CL (44_logic_shift.md R404). -/
def execRcrEvCl (e : Rm16) (s : State) : Out := shiftRm16 .rcr (clCount s) e s

/-- SHL Eb, 1 (44_logic_shift.md R405). -/
def execShlEb1 (e : Rm8) (s : State) : Out := shiftRm8 .shl 1 e s

/-- SHL Eb, CL (44_logic_shift.md R405). -/
def execShlEbCl (e : Rm8) (s : State) : Out := shiftRm8 .shl (clCount s) e s

/-- SHL Ev, 1 (44_logic_shift.md R405). -/
def execShlEv1 (e : Rm16) (s : State) : Out := shiftRm16 .shl 1 e s

/-- SHL Ev, CL (44_logic_shift.md R405). -/
def execShlEvCl (e : Rm16) (s : State) : Out := shiftRm16 .shl (clCount s) e s

/-- SHR Eb, 1 (44_logic_shift.md R406). -/
def execShrEb1 (e : Rm8) (s : State) : Out := shiftRm8 .shr 1 e s

/-- SHR Eb, CL (44_logic_shift.md R406). -/
def execShrEbCl (e : Rm8) (s : State) : Out := shiftRm8 .shr (clCount s) e s

/-- SHR Ev, 1 (44_logic_shift.md R406). -/
def execShrEv1 (e : Rm16) (s : State) : Out := shiftRm16 .shr 1 e s

/-- SHR Ev, CL (44_logic_shift.md R406). -/
def execShrEvCl (e : Rm16) (s : State) : Out := shiftRm16 .shr (clCount s) e s

/-- SAR Eb, 1 (44_logic_shift.md R407). -/
def execSarEb1 (e : Rm8) (s : State) : Out := shiftRm8 .sar 1 e s

/-- SAR Eb, CL (44_logic_shift.md R407). -/
def execSarEbCl (e : Rm8) (s : State) : Out := shiftRm8 .sar (clCount s) e s

/-- SAR Ev, 1 (44_logic_shift.md R407). -/
def execSarEv1 (e : Rm16) (s : State) : Out := shiftRm16 .sar 1 e s

/-- SAR Ev, CL (44_logic_shift.md R407). -/
def execSarEvCl (e : Rm16) (s : State) : Out := shiftRm16 .sar (clCount s) e s

end Sys2Proof.Machine
end

