-- ==== Sys2Proof/Machine/Strings.lean ====
section
/-! DEFINITION. The string instructions and the repeat engine (45_string.md R430-R444). -/

namespace Sys2Proof.Machine

/-- `readSrc`, bytes: at srcSeg:SI (45_string.md R430). -/
def readSrc8 (s : State) : Res Byte := memRead8 (segOr .ds s) (s.reg .si) s

/-- `readSrc`, words (45_string.md R430). -/
def readSrc16 (s : State) : Res Word := memRead16 (segOr .ds s) (s.reg .si) s

/-- `readDst`, bytes: at ES:DI, whatever the override (45_string.md R430). -/
def readDst8 (s : State) : Res Byte := memRead8 (s.sreg .es) (s.reg .di) s

/-- `readDst`, words (45_string.md R430). -/
def readDst16 (s : State) : Res Word := memRead16 (s.sreg .es) (s.reg .di) s

/-- `writeDst`, bytes (45_string.md R430). -/
def writeDst8 (v : Byte) (s : State) : Out := memWrite8 (s.sreg .es) (s.reg .di) v s

/-- `writeDst`, words (45_string.md R430). -/
def writeDst16 (v : Word) (s : State) : Out := memWrite16 (s.sreg .es) (s.reg .di) v s

/-- An index register moves by `n` bytes in the direction of DF (45_string.md R431). -/
def advance (r : Reg16) (n : Word) (s : State) : State :=
  s.setReg r (if s.flag .DF then s.reg r - n else s.reg r + n)

/-- The repeat loop: the test of CX, the body, the decrement and, for CMPS and SCAS, the test of ZF (45_string.md R432, D40). The bound
makes the loop total; no run spends it (log entry 11). -/
def repeatLoop (body : State → Out) (testsZf : Bool) : Nat → State → Out
  | bound, s =>
    if s.reg .cx = 0 then .next s
    else
      match bound with
      | 0 => .fault .repeatBound
      | bound + 1 =>
        thenDo (body s) fun s =>
          let s := s.setReg .cx (s.reg .cx - 1)
          if testsZf && s.flag .ZF != s.repeatWhile then .next s else repeatLoop body testsZf bound s

/-- `stringOp` (45_string.md R432). -/
def stringOp (body : State → Out) (testsZf : Bool) (s : State) : Out :=
  if s.rep then repeatLoop body testsZf (0x10000 * (s.host.length + 1)) s else body s

/-- The body of MOVSB (45_string.md R440). -/
def movsBody8 (s : State) : Out :=
  thenWith (readSrc8 s) fun v s => thenDo (writeDst8 v s) fun s => .next (advance .di 1 (advance .si 1 s))

/-- The body of MOVSW (45_string.md R440). -/
def movsBody16 (s : State) : Out :=
  thenWith (readSrc16 s) fun v s => thenDo (writeDst16 v s) fun s => .next (advance .di 2 (advance .si 2 s))

/-- The body of CMPSB (45_string.md R441). -/
def cmpsBody8 (s : State) : Out :=
  thenWith (readSrc8 s) fun a s => thenWith (readDst8 s) fun b s =>
    .next (advance .di 1 (advance .si 1 (s.mapFlags (subFlags a b false))))

/-- The body of CMPSW (45_string.md R441). -/
def cmpsBody16 (s : State) : Out :=
  thenWith (readSrc16 s) fun a s => thenWith (readDst16 s) fun b s =>
    .next (advance .di 2 (advance .si 2 (s.mapFlags (subFlags a b false))))

/-- The body of SCASB (45_string.md R442). -/
def scasBody8 (s : State) : Out :=
  thenWith (readDst8 s) fun b s => .next (advance .di 1 (s.mapFlags (subFlags (s.reg8 .al) b false)))

/-- The body of SCASW (45_string.md R442). -/
def scasBody16 (s : State) : Out :=
  thenWith (readDst16 s) fun b s => .next (advance .di 2 (s.mapFlags (subFlags (s.reg .ax) b false)))

/-- The body of LODSB (45_string.md R443). -/
def lodsBody8 (s : State) : Out := thenWith (readSrc8 s) fun v s => .next (advance .si 1 (s.setReg8 .al v))

/-- The body of LODSW (45_string.md R443). -/
def lodsBody16 (s : State) : Out := thenWith (readSrc16 s) fun v s => .next (advance .si 2 (s.setReg .ax v))

/-- The body of STOSB (45_string.md R444). -/
def stosBody8 (s : State) : Out := thenDo (writeDst8 (s.reg8 .al) s) fun s => .next (advance .di 1 s)

/-- The body of STOSW (45_string.md R444). -/
def stosBody16 (s : State) : Out := thenDo (writeDst16 (s.reg .ax) s) fun s => .next (advance .di 2 s)

/-- MOVSB (45_string.md R440). -/
def execMovsb (s : State) : Out := stringOp movsBody8 false s

/-- MOVSW (45_string.md R440). -/
def execMovsw (s : State) : Out := stringOp movsBody16 false s

/-- CMPSB (45_string.md R441). -/
def execCmpsb (s : State) : Out := stringOp cmpsBody8 true s

/-- CMPSW (45_string.md R441). -/
def execCmpsw (s : State) : Out := stringOp cmpsBody16 true s

/-- SCASB (45_string.md R442). -/
def execScasb (s : State) : Out := stringOp scasBody8 true s

/-- SCASW (45_string.md R442). -/
def execScasw (s : State) : Out := stringOp scasBody16 true s

/-- LODSB (45_string.md R443). -/
def execLodsb (s : State) : Out := stringOp lodsBody8 false s

/-- LODSW (45_string.md R443). -/
def execLodsw (s : State) : Out := stringOp lodsBody16 false s

/-- STOSB (45_string.md R444). -/
def execStosb (s : State) : Out := stringOp stosBody8 false s

/-- STOSW (45_string.md R444). -/
def execStosw (s : State) : Out := stringOp stosBody16 false s

end Sys2Proof.Machine
end

