-- ==== Sys2Proof/Machine/System.lean ====
section
/-! DEFINITION. Software interrupts and their return, HLT, the flag instructions, WAIT and ESC (47_system.md R520-R546). -/

namespace Sys2Proof.Machine

/-- INT n (47_system.md R520). -/
def execIntIb (n : Byte) (s : State) : Out := interrupt n s

/-- INT3 (47_system.md R521). -/
def execInt3 (s : State) : Out := interrupt 3 s

/-- INTO (47_system.md R522). -/
def execInto (s : State) : Out := if s.flag .OF then interrupt 4 s else .next s

/-- IRET (47_system.md R523). -/
def execIret (s : State) : Out := returnFromInterrupt s

/-- HLT: the host is told, then the core is Halted (47_system.md R530). -/
def execHlt (s : State) : Out := .next ((haltCall s).setRunState .halted)

/-- CLC (47_system.md R535). -/
def execClc (s : State) : Out := .next (s.setFlag .CF false)

/-- STC (47_system.md R536). -/
def execStc (s : State) : Out := .next (s.setFlag .CF true)

/-- CMC (47_system.md R537). -/
def execCmc (s : State) : Out := .next (s.setFlag .CF (!s.flag .CF))

/-- CLD (47_system.md R538). -/
def execCld (s : State) : Out := .next (s.setFlag .DF false)

/-- STD (47_system.md R539). -/
def execStd (s : State) : Out := .next (s.setFlag .DF true)

/-- CLI (47_system.md R540). -/
def execCli (s : State) : Out := .next (s.setFlag .IF false)

/-- STI (47_system.md R541). -/
def execSti (s : State) : Out := .next (s.setFlag .IF true)

/-- WAIT: a no-op (47_system.md R545). -/
def execWait (s : State) : Out := .next s

/-- ESC: a no-op once its operand bytes are fetched; no memory access (47_system.md R546). -/
def execEsc (_n _r : BitVec 3) (_e : Rm16) (s : State) : Out := .next s

end Sys2Proof.Machine
end

