-- ==== Sys2Proof/Machine/Dispatch.lean ====
section
/-! DEFINITION. The dispatch: one arm for each constructor of Instr, each a call of that instruction's meaning (40_pipeline.md R202). -/

namespace Sys2Proof.Machine

def exec (i : Instr) (s : State) : Host.Outcome State Fault Refusal :=
  match i with
  | .addEbGb e g => Sys2Proof.Machine.execAddEbGb e g s
  | .addEvGv e g => Sys2Proof.Machine.execAddEvGv e g s
  | .addGbEb g e => Sys2Proof.Machine.execAddGbEb g e s
  | .addGvEv g e => Sys2Proof.Machine.execAddGvEv g e s
  | .addAlIb imm => Sys2Proof.Machine.execAddAlIb imm s
  | .addAxIw imm => Sys2Proof.Machine.execAddAxIw imm s
  | .orEbGb e g => Sys2Proof.Machine.execOrEbGb e g s
  | .orEvGv e g => Sys2Proof.Machine.execOrEvGv e g s
  | .orGbEb g e => Sys2Proof.Machine.execOrGbEb g e s
  | .orGvEv g e => Sys2Proof.Machine.execOrGvEv g e s
  | .orAlIb imm => Sys2Proof.Machine.execOrAlIb imm s
  | .orAxIw imm => Sys2Proof.Machine.execOrAxIw imm s
  | .adcEbGb e g => Sys2Proof.Machine.execAdcEbGb e g s
  | .adcEvGv e g => Sys2Proof.Machine.execAdcEvGv e g s
  | .adcGbEb g e => Sys2Proof.Machine.execAdcGbEb g e s
  | .adcGvEv g e => Sys2Proof.Machine.execAdcGvEv g e s
  | .adcAlIb imm => Sys2Proof.Machine.execAdcAlIb imm s
  | .adcAxIw imm => Sys2Proof.Machine.execAdcAxIw imm s
  | .sbbEbGb e g => Sys2Proof.Machine.execSbbEbGb e g s
  | .sbbEvGv e g => Sys2Proof.Machine.execSbbEvGv e g s
  | .sbbGbEb g e => Sys2Proof.Machine.execSbbGbEb g e s
  | .sbbGvEv g e => Sys2Proof.Machine.execSbbGvEv g e s
  | .sbbAlIb imm => Sys2Proof.Machine.execSbbAlIb imm s
  | .sbbAxIw imm => Sys2Proof.Machine.execSbbAxIw imm s
  | .andEbGb e g => Sys2Proof.Machine.execAndEbGb e g s
  | .andEvGv e g => Sys2Proof.Machine.execAndEvGv e g s
  | .andGbEb g e => Sys2Proof.Machine.execAndGbEb g e s
  | .andGvEv g e => Sys2Proof.Machine.execAndGvEv g e s
  | .andAlIb imm => Sys2Proof.Machine.execAndAlIb imm s
  | .andAxIw imm => Sys2Proof.Machine.execAndAxIw imm s
  | .subEbGb e g => Sys2Proof.Machine.execSubEbGb e g s
  | .subEvGv e g => Sys2Proof.Machine.execSubEvGv e g s
  | .subGbEb g e => Sys2Proof.Machine.execSubGbEb g e s
  | .subGvEv g e => Sys2Proof.Machine.execSubGvEv g e s
  | .subAlIb imm => Sys2Proof.Machine.execSubAlIb imm s
  | .subAxIw imm => Sys2Proof.Machine.execSubAxIw imm s
  | .xorEbGb e g => Sys2Proof.Machine.execXorEbGb e g s
  | .xorEvGv e g => Sys2Proof.Machine.execXorEvGv e g s
  | .xorGbEb g e => Sys2Proof.Machine.execXorGbEb g e s
  | .xorGvEv g e => Sys2Proof.Machine.execXorGvEv g e s
  | .xorAlIb imm => Sys2Proof.Machine.execXorAlIb imm s
  | .xorAxIw imm => Sys2Proof.Machine.execXorAxIw imm s
  | .cmpEbGb e g => Sys2Proof.Machine.execCmpEbGb e g s
  | .cmpEvGv e g => Sys2Proof.Machine.execCmpEvGv e g s
  | .cmpGbEb g e => Sys2Proof.Machine.execCmpGbEb g e s
  | .cmpGvEv g e => Sys2Proof.Machine.execCmpGvEv g e s
  | .cmpAlIb imm => Sys2Proof.Machine.execCmpAlIb imm s
  | .cmpAxIw imm => Sys2Proof.Machine.execCmpAxIw imm s
  | .incR16 r => Sys2Proof.Machine.execIncR16 r s
  | .decR16 r => Sys2Proof.Machine.execDecR16 r s
  | .pushR16 r => Sys2Proof.Machine.execPushR16 r s
  | .popR16 r => Sys2Proof.Machine.execPopR16 r s
  | .inv60 lo => Sys2Proof.Machine.execInv60 lo s
  | .jo rel => Sys2Proof.Machine.execJo rel s
  | .jno rel => Sys2Proof.Machine.execJno rel s
  | .jb rel => Sys2Proof.Machine.execJb rel s
  | .jnb rel => Sys2Proof.Machine.execJnb rel s
  | .je rel => Sys2Proof.Machine.execJe rel s
  | .jne rel => Sys2Proof.Machine.execJne rel s
  | .jbe rel => Sys2Proof.Machine.execJbe rel s
  | .ja rel => Sys2Proof.Machine.execJa rel s
  | .js rel => Sys2Proof.Machine.execJs rel s
  | .jns rel => Sys2Proof.Machine.execJns rel s
  | .jp rel => Sys2Proof.Machine.execJp rel s
  | .jnp rel => Sys2Proof.Machine.execJnp rel s
  | .jl rel => Sys2Proof.Machine.execJl rel s
  | .jge rel => Sys2Proof.Machine.execJge rel s
  | .jle rel => Sys2Proof.Machine.execJle rel s
  | .jg rel => Sys2Proof.Machine.execJg rel s
  | .addEbIb e imm => Sys2Proof.Machine.execAddEbIb e imm s
  | .orEbIb e imm => Sys2Proof.Machine.execOrEbIb e imm s
  | .adcEbIb e imm => Sys2Proof.Machine.execAdcEbIb e imm s
  | .sbbEbIb e imm => Sys2Proof.Machine.execSbbEbIb e imm s
  | .andEbIb e imm => Sys2Proof.Machine.execAndEbIb e imm s
  | .subEbIb e imm => Sys2Proof.Machine.execSubEbIb e imm s
  | .xorEbIb e imm => Sys2Proof.Machine.execXorEbIb e imm s
  | .cmpEbIb e imm => Sys2Proof.Machine.execCmpEbIb e imm s
  | .addEvIw e imm => Sys2Proof.Machine.execAddEvIw e imm s
  | .orEvIw e imm => Sys2Proof.Machine.execOrEvIw e imm s
  | .adcEvIw e imm => Sys2Proof.Machine.execAdcEvIw e imm s
  | .sbbEvIw e imm => Sys2Proof.Machine.execSbbEvIw e imm s
  | .andEvIw e imm => Sys2Proof.Machine.execAndEvIw e imm s
  | .subEvIw e imm => Sys2Proof.Machine.execSubEvIw e imm s
  | .xorEvIw e imm => Sys2Proof.Machine.execXorEvIw e imm s
  | .cmpEvIw e imm => Sys2Proof.Machine.execCmpEvIw e imm s
  | .addEvSib e imm => Sys2Proof.Machine.execAddEvSib e imm s
  | .orEvSib e imm => Sys2Proof.Machine.execOrEvSib e imm s
  | .adcEvSib e imm => Sys2Proof.Machine.execAdcEvSib e imm s
  | .sbbEvSib e imm => Sys2Proof.Machine.execSbbEvSib e imm s
  | .andEvSib e imm => Sys2Proof.Machine.execAndEvSib e imm s
  | .subEvSib e imm => Sys2Proof.Machine.execSubEvSib e imm s
  | .xorEvSib e imm => Sys2Proof.Machine.execXorEvSib e imm s
  | .cmpEvSib e imm => Sys2Proof.Machine.execCmpEvSib e imm s
  | .testEbGb e g => Sys2Proof.Machine.execTestEbGb e g s
  | .testEvGv e g => Sys2Proof.Machine.execTestEvGv e g s
  | .xchgEbGb e g => Sys2Proof.Machine.execXchgEbGb e g s
  | .xchgEvGv e g => Sys2Proof.Machine.execXchgEvGv e g s
  | .movEbGb e g => Sys2Proof.Machine.execMovEbGb e g s
  | .movEvGv e g => Sys2Proof.Machine.execMovEvGv e g s
  | .movGbEb g e => Sys2Proof.Machine.execMovGbEb g e s
  | .movGvEv g e => Sys2Proof.Machine.execMovGvEv g e s
  | .movEwSw e sr => Sys2Proof.Machine.execMovEwSw e sr s
  | .inv8C r e => Sys2Proof.Machine.execInv8C r e s
  | .leaGvM g m => Sys2Proof.Machine.execLeaGvM g m s
  | .inv8D g r => Sys2Proof.Machine.execInv8D g r s
  | .movEsEw e => Sys2Proof.Machine.execMovEsEw e s
  | .movSsEw e => Sys2Proof.Machine.execMovSsEw e s
  | .movDsEw e => Sys2Proof.Machine.execMovDsEw e s
  | .inv8Ecs e => Sys2Proof.Machine.execInv8Ecs e s
  | .inv8E r e => Sys2Proof.Machine.execInv8E r e s
  | .popEv e => Sys2Proof.Machine.execPopEv e s
  | .inv8F r e => Sys2Proof.Machine.execInv8F r e s
  | .xchgAxR16 r => Sys2Proof.Machine.execXchgAxR16 r s
  | .callAp off sg => Sys2Proof.Machine.execCallAp off sg s
  | .movAlOb off => Sys2Proof.Machine.execMovAlOb off s
  | .movAxOv off => Sys2Proof.Machine.execMovAxOv off s
  | .movObAl off => Sys2Proof.Machine.execMovObAl off s
  | .movOvAx off => Sys2Proof.Machine.execMovOvAx off s
  | .testAlIb imm => Sys2Proof.Machine.execTestAlIb imm s
  | .testAxIw imm => Sys2Proof.Machine.execTestAxIw imm s
  | .movR8Ib r imm => Sys2Proof.Machine.execMovR8Ib r imm s
  | .movR16Iw r imm => Sys2Proof.Machine.execMovR16Iw r imm s
  | .retIw imm => Sys2Proof.Machine.execRetIw imm s
  | .lesGvMp g m => Sys2Proof.Machine.execLesGvMp g m s
  | .invC4 g r => Sys2Proof.Machine.execInvC4 g r s
  | .ldsGvMp g m => Sys2Proof.Machine.execLdsGvMp g m s
  | .invC5 g r => Sys2Proof.Machine.execInvC5 g r s
  | .movEbIb e imm => Sys2Proof.Machine.execMovEbIb e imm s
  | .invC6 r e => Sys2Proof.Machine.execInvC6 r e s
  | .movEvIw e imm => Sys2Proof.Machine.execMovEvIw e imm s
  | .invC7 r e => Sys2Proof.Machine.execInvC7 r e s
  | .retfIw imm => Sys2Proof.Machine.execRetfIw imm s
  | .intIb n => Sys2Proof.Machine.execIntIb n s
  | .rolEb1 e => Sys2Proof.Machine.execRolEb1 e s
  | .rorEb1 e => Sys2Proof.Machine.execRorEb1 e s
  | .rclEb1 e => Sys2Proof.Machine.execRclEb1 e s
  | .rcrEb1 e => Sys2Proof.Machine.execRcrEb1 e s
  | .shlEb1 e => Sys2Proof.Machine.execShlEb1 e s
  | .shrEb1 e => Sys2Proof.Machine.execShrEb1 e s
  | .invD0r6 e => Sys2Proof.Machine.execInvD0r6 e s
  | .sarEb1 e => Sys2Proof.Machine.execSarEb1 e s
  | .rolEv1 e => Sys2Proof.Machine.execRolEv1 e s
  | .rorEv1 e => Sys2Proof.Machine.execRorEv1 e s
  | .rclEv1 e => Sys2Proof.Machine.execRclEv1 e s
  | .rcrEv1 e => Sys2Proof.Machine.execRcrEv1 e s
  | .shlEv1 e => Sys2Proof.Machine.execShlEv1 e s
  | .shrEv1 e => Sys2Proof.Machine.execShrEv1 e s
  | .invD1r6 e => Sys2Proof.Machine.execInvD1r6 e s
  | .sarEv1 e => Sys2Proof.Machine.execSarEv1 e s
  | .rolEbCl e => Sys2Proof.Machine.execRolEbCl e s
  | .rorEbCl e => Sys2Proof.Machine.execRorEbCl e s
  | .rclEbCl e => Sys2Proof.Machine.execRclEbCl e s
  | .rcrEbCl e => Sys2Proof.Machine.execRcrEbCl e s
  | .shlEbCl e => Sys2Proof.Machine.execShlEbCl e s
  | .shrEbCl e => Sys2Proof.Machine.execShrEbCl e s
  | .invD2r6 e => Sys2Proof.Machine.execInvD2r6 e s
  | .sarEbCl e => Sys2Proof.Machine.execSarEbCl e s
  | .rolEvCl e => Sys2Proof.Machine.execRolEvCl e s
  | .rorEvCl e => Sys2Proof.Machine.execRorEvCl e s
  | .rclEvCl e => Sys2Proof.Machine.execRclEvCl e s
  | .rcrEvCl e => Sys2Proof.Machine.execRcrEvCl e s
  | .shlEvCl e => Sys2Proof.Machine.execShlEvCl e s
  | .shrEvCl e => Sys2Proof.Machine.execShrEvCl e s
  | .invD3r6 e => Sys2Proof.Machine.execInvD3r6 e s
  | .sarEvCl e => Sys2Proof.Machine.execSarEvCl e s
  | .aam base => Sys2Proof.Machine.execAam base s
  | .aad base => Sys2Proof.Machine.execAad base s
  | .esc n r e => Sys2Proof.Machine.execEsc n r e s
  | .loopne rel => Sys2Proof.Machine.execLoopne rel s
  | .loope rel => Sys2Proof.Machine.execLoope rel s
  | .loop rel => Sys2Proof.Machine.execLoop rel s
  | .jcxz rel => Sys2Proof.Machine.execJcxz rel s
  | .inAlIb port => Sys2Proof.Machine.execInAlIb port s
  | .inAxIb port => Sys2Proof.Machine.execInAxIb port s
  | .outIbAl port => Sys2Proof.Machine.execOutIbAl port s
  | .outIbAx port => Sys2Proof.Machine.execOutIbAx port s
  | .callRel16 rel => Sys2Proof.Machine.execCallRel16 rel s
  | .jmpRel16 rel => Sys2Proof.Machine.execJmpRel16 rel s
  | .jmpAp off sg => Sys2Proof.Machine.execJmpAp off sg s
  | .jmpRel8 rel => Sys2Proof.Machine.execJmpRel8 rel s
  | .testEbIb e imm => Sys2Proof.Machine.execTestEbIb e imm s
  | .invF6r1 e => Sys2Proof.Machine.execInvF6r1 e s
  | .notEb e => Sys2Proof.Machine.execNotEb e s
  | .negEb e => Sys2Proof.Machine.execNegEb e s
  | .mulEb e => Sys2Proof.Machine.execMulEb e s
  | .imulEb e => Sys2Proof.Machine.execImulEb e s
  | .divEb e => Sys2Proof.Machine.execDivEb e s
  | .idivEb e => Sys2Proof.Machine.execIdivEb e s
  | .testEvIw e imm => Sys2Proof.Machine.execTestEvIw e imm s
  | .invF7r1 e => Sys2Proof.Machine.execInvF7r1 e s
  | .notEv e => Sys2Proof.Machine.execNotEv e s
  | .negEv e => Sys2Proof.Machine.execNegEv e s
  | .mulEv e => Sys2Proof.Machine.execMulEv e s
  | .imulEv e => Sys2Proof.Machine.execImulEv e s
  | .divEv e => Sys2Proof.Machine.execDivEv e s
  | .idivEv e => Sys2Proof.Machine.execIdivEv e s
  | .incEb e => Sys2Proof.Machine.execIncEb e s
  | .decEb e => Sys2Proof.Machine.execDecEb e s
  | .invFE r e => Sys2Proof.Machine.execInvFE r e s
  | .incEv e => Sys2Proof.Machine.execIncEv e s
  | .decEv e => Sys2Proof.Machine.execDecEv e s
  | .callEv e => Sys2Proof.Machine.execCallEv e s
  | .callMp m => Sys2Proof.Machine.execCallMp m s
  | .jmpEv e => Sys2Proof.Machine.execJmpEv e s
  | .jmpMp m => Sys2Proof.Machine.execJmpMp m s
  | .pushEv e => Sys2Proof.Machine.execPushEv e s
  | .invFFr3 r => Sys2Proof.Machine.execInvFFr3 r s
  | .invFFr5 r => Sys2Proof.Machine.execInvFFr5 r s
  | .invFFr7 e => Sys2Proof.Machine.execInvFFr7 e s
  | .pushEs => Sys2Proof.Machine.execPushEs s
  | .popEs => Sys2Proof.Machine.execPopEs s
  | .pushCs => Sys2Proof.Machine.execPushCs s
  | .pushSs => Sys2Proof.Machine.execPushSs s
  | .popSs => Sys2Proof.Machine.execPopSs s
  | .pushDs => Sys2Proof.Machine.execPushDs s
  | .popDs => Sys2Proof.Machine.execPopDs s
  | .inv0F => Sys2Proof.Machine.execInv0F s
  | .segEs => Sys2Proof.Machine.execSegEs s
  | .segCs => Sys2Proof.Machine.execSegCs s
  | .segSs => Sys2Proof.Machine.execSegSs s
  | .segDs => Sys2Proof.Machine.execSegDs s
  | .daa => Sys2Proof.Machine.execDaa s
  | .das => Sys2Proof.Machine.execDas s
  | .aaa => Sys2Proof.Machine.execAaa s
  | .aas => Sys2Proof.Machine.execAas s
  | .inv82 => Sys2Proof.Machine.execInv82 s
  | .nop => Sys2Proof.Machine.execNop s
  | .cbw => Sys2Proof.Machine.execCbw s
  | .cwd => Sys2Proof.Machine.execCwd s
  | .wait => Sys2Proof.Machine.execWait s
  | .pushf => Sys2Proof.Machine.execPushf s
  | .popf => Sys2Proof.Machine.execPopf s
  | .sahf => Sys2Proof.Machine.execSahf s
  | .lahf => Sys2Proof.Machine.execLahf s
  | .movsb => Sys2Proof.Machine.execMovsb s
  | .movsw => Sys2Proof.Machine.execMovsw s
  | .cmpsb => Sys2Proof.Machine.execCmpsb s
  | .cmpsw => Sys2Proof.Machine.execCmpsw s
  | .stosb => Sys2Proof.Machine.execStosb s
  | .stosw => Sys2Proof.Machine.execStosw s
  | .lodsb => Sys2Proof.Machine.execLodsb s
  | .lodsw => Sys2Proof.Machine.execLodsw s
  | .scasb => Sys2Proof.Machine.execScasb s
  | .scasw => Sys2Proof.Machine.execScasw s
  | .invC0 => Sys2Proof.Machine.execInvC0 s
  | .invC1 => Sys2Proof.Machine.execInvC1 s
  | .invC8 => Sys2Proof.Machine.execInvC8 s
  | .invC9 => Sys2Proof.Machine.execInvC9 s
  | .invD6 => Sys2Proof.Machine.execInvD6 s
  | .invF1 => Sys2Proof.Machine.execInvF1 s
  | .ret => Sys2Proof.Machine.execRet s
  | .retf => Sys2Proof.Machine.execRetf s
  | .int3 => Sys2Proof.Machine.execInt3 s
  | .into => Sys2Proof.Machine.execInto s
  | .iret => Sys2Proof.Machine.execIret s
  | .xlat => Sys2Proof.Machine.execXlat s
  | .inAlDx => Sys2Proof.Machine.execInAlDx s
  | .inAxDx => Sys2Proof.Machine.execInAxDx s
  | .outDxAl => Sys2Proof.Machine.execOutDxAl s
  | .outDxAx => Sys2Proof.Machine.execOutDxAx s
  | .lock => Sys2Proof.Machine.execLock s
  | .repne => Sys2Proof.Machine.execRepne s
  | .rep => Sys2Proof.Machine.execRep s
  | .hlt => Sys2Proof.Machine.execHlt s
  | .cmc => Sys2Proof.Machine.execCmc s
  | .clc => Sys2Proof.Machine.execClc s
  | .stc => Sys2Proof.Machine.execStc s
  | .cli => Sys2Proof.Machine.execCli s
  | .sti => Sys2Proof.Machine.execSti s
  | .cld => Sys2Proof.Machine.execCld s
  | .std => Sys2Proof.Machine.execStd s

end Sys2Proof.Machine
end

