-- ==== Sys2Proof/Machine/Fetch.lean ====
section
/-! DEFINITION. Fetching an instruction field by field at CS:IP, with the host's observer hooks (40_pipeline.md R201), resolving the
memory operand after the displacement (30_encoding.md R149), and placing the bytes of an instruction where the next step
fetches. -/

namespace Sys2Proof.Machine

namespace State

/-- IP moves past one instruction-stream byte (10_state.md R35; 40_pipeline.md R201), which joins the bytes of this step (D38). -/
def stepPast (s : State) (b : Byte) : State := { s with ip := s.ip + 1, stepBytes := s.stepBytes ++ [b] }

/-- The decoder resolves a memory operand; decoding a mod/reg/rm byte consumes the override, on whose register operand it has no effect
(30_encoding.md R141, R145, R149; 47_system.md R546). -/
def latchEa (s : State) (op modrm : Byte) (disp : Word) : State :=
  if hasModrm op then
    { s with
      ea := if modField modrm = 3 then s.ea else some (resolve (MemOp.ofFields (modField modrm) (rmField modrm) disp) s)
      segOverride := none }
  else s

/-- Run state after the opcode byte: a prefix byte continues the chain, any other opcode is fetched (10_state.md R52). -/
def opcodeFetched (s : State) (op : Byte) : State :=
  if op = 0x26 ∨ op = 0x2E ∨ op = 0x36 ∨ op = 0x3E ∨ op = 0xF0 ∨ op = 0xF2 ∨ op = 0xF3 then s
  else { s with runState := .fetchedOpcode }

end State

/-- One instruction-stream byte: `fetchByte(lin(CS, IP))`, then IP advances (40_pipeline.md R201). -/
def fetchNext (s : State) : Res Byte :=
  thenWith (fetchByte (lin (s.sreg .cs) s.ip) s) fun b s => .next (b, s.stepPast b)

/-- `Fetch8` (40_pipeline.md R201). -/
def fetch8 (s : State) : Res Byte :=
  thenWith (fetchNext s) fun b s => thenDo (callHost (.fetched8 b s.instructionCount) s) fun s => .next (b, s)

/-- `Fetch16`: two bytes, low byte first, and one hook (40_pipeline.md R201; D22). -/
def fetch16 (s : State) : Res Word :=
  thenWith (fetchNext s) fun lo s =>
  thenWith (fetchNext s) fun hi s =>
  thenDo (callHost (.fetched16 (wordOf lo hi) s.instructionCount) s) fun s => .next (wordOf lo hi, s)

/-- A field of 0, 1 or 2 bytes. -/
def fetchField : Nat → State → Res Word
  | 0, s => .next (0, s)
  | 1, s => thenWith (fetch8 s) fun b s => .next (zext16 b, s)
  | _, s => fetch16 s

/-- The mod/reg/rm byte, when the opcode has one. -/
def fetchModrm (op : Byte) (s : State) : Res Byte := if hasModrm op then fetch8 s else .next (0, s)

/-- The fields of one instruction or prefix byte, in the order of 30_encoding.md R130: opcode, mod/reg/rm byte, displacement, then E is
resolved, then the immediate (R149). -/
def fetchBody (s : State) : Res Body :=
  thenWith (fetch8 s) fun op s =>
  thenWith (fetchModrm op (s.opcodeFetched op)) fun modrm s =>
  thenWith (fetchField (dispLenOf op modrm) s) fun disp s =>
  thenWith (fetchField (immLen1 op modrm) (s.latchEa op modrm disp)) fun imm s =>
  thenWith (fetchField (immLen2 op modrm) s) fun seg s => .next ({ op, modrm, disp, imm, seg }, s)

/-- The bytes at CS:IP, CS:IP+1, ... that the next `n` instruction-stream fetches read (20_memory.md R96). -/
def State.codeBytes (s : State) : Nat → Word → List Byte
  | 0, _ => []
  | n + 1, off => s.peek (lin (s.sreg .cs) off) :: s.codeBytes n (off + 1)

/-- Stores bytes from CS:off on, the offset wrapping in the segment, as a loader does through the unchecked accessors
(20_memory.md R115; 70_reset_and_hazards.md R632). -/
def State.placeCode (s : State) (off : Word) : List Byte → State
  | [] => s
  | b :: bytes => (s.poke (lin (s.sreg .cs) off) b).placeCode (off + 1) bytes

end Sys2Proof.Machine
end

