-- ==== Sys2Proof/Machine/Step.lean ====
section
/-! DEFINITION. The step: a prefix chain and the instruction it ends in (40_pipeline.md R200-R205, R220). -/

namespace Sys2Proof.Machine

/-- Fetches and runs one instruction after the other until one that is no prefix has run; gives that instruction (40_pipeline.md R202,
R205). The bound counts prefix bytes. -/
def runChain : Nat → State → Res Instr
  | 0, _ => .fault .endlessPrefixes
  | bound + 1, s =>
    thenWith (fetchBody s) fun b s =>
      if isPrefix b.instr then thenDo (exec b.instr s) fun s => runChain bound s
      else thenDo (exec b.instr (s.setRunState .executing)) fun s => .next (b.instr, s)

/-- A bound no chain that ends exceeds: one reply of the host's script is used up by each prefix byte while any is left, and after that
0x10000 prefix bytes in a row are a whole code segment of them, whose chain never ends (40_pipeline.md R205; log entry 9). No larger bound gives
another step (Sys2Proof/Laws/Chain.lean). -/
def chainBound (s : State) : Nat := s.host.length + 0x10001

/-- One step (40_pipeline.md R200): it needs the run state Idle. -/
def step (s : State) : Host.Outcome State Fault Refusal :=
  match s.runState with
  | .idle => thenWith (runChain (chainBound s) (beginStep s)) fun i t => endStep (s.flag .TF) i t
  | .halted => .fault .halted
  | r => .fault (.notIdle r)

/-- The state with the instruction whose bits are `w`, numbered as spec/opcode_table.json numbers them, stored at CS:IP, where the step
fetches (log entry 16). -/
def State.withFetchWord (s : State) (nbits w : Nat) : State := s.placeCode s.ip (tableBytes nbits w)

end Sys2Proof.Machine
end

