-- ==== Sys2Proof/Safety.lean ====
section
/-! DEFINITION. The vocabulary the claims use: the quiet host, what each shared operation gives under it as a plain value and a plain
state, what an instruction may write (its destination registers, flags and bytes of memory), and the invariant of the machine. The step
uses none of these; the claims state the step in terms of them. -/

namespace Sys2Proof.Machine

/-! ### The quiet host -/

/-- A reply that returns and does nothing; its answer to a port read is as it is. -/
def HostReply.Quiet (r : HostReply) : Prop := r.returns = true ∧ r.acts = []

/-- The host's script is quiet. Past its script the host is quiet too (60_exceptions.md R609; at `halt` and in a port read by the model's
choice, log entry 31), but for `interrupt` calls: see `QuietAtInterrupt`. -/
def Quiet (s : State) : Prop := ∀ r ∈ s.host, r.Quiet

/-- At an `interrupt` call past its script the host is quiet as well. The default host of 60_exceptions.md R609 may do anything there
(log entry 29), so a statement that gives the state after a dispatch says that it assumes this. -/
def QuietAtInterrupt (s : State) : Prop := ∃ r, s.atInterrupt = some r ∧ r.Quiet

namespace State

/-- The state after a byte access has been checked: a missing permission has been reported (20_memory.md R88-R90). -/
def checked (s : State) (k : Permission) (a : Addr) : State :=
  if s.allows k a then s else s.told (.invalidMemoryAccess a k.mask)

/-- Both bytes of a word checked, in ascending order of their offsets (20_memory.md R91). -/
def checkedWord (s : State) (k : Permission) (seg off : Word) : State :=
  (s.checked k (lin seg off)).checked k (lin seg (off + 1))

/-- The byte at `seg:off` (20_memory.md R91). -/
def byteAt (s : State) (seg off : Word) : Byte := s.peek (lin seg off)

/-- The word at `seg:off`: its high byte is at `off + 1`, which wraps in the segment (20_memory.md R81, R94). -/
def wordAt (s : State) (seg off : Word) : Word := wordOf (s.byteAt seg off) (s.byteAt seg (off + 1))

/-- The state after a byte has been checked and stored at `seg:off` (20_memory.md R89, R92). -/
def storeByte (s : State) (seg off : Word) (v : Byte) : State :=
  (s.checked .write (lin seg off)).poke (lin seg off) v

/-- The state after a word has been stored at `seg:off`, low byte first (20_memory.md R92, R94). -/
def storeWord (s : State) (seg off : Word) (v : Word) : State :=
  (s.storeByte seg off (loByte v)).storeByte seg (off + 1) (hiByte v)

/-- The state after `Push16(v)`: SP goes down by 2, then the word is stored at SS:SP (41_data_transfer.md R250). -/
def pushed (s : State) (v : Word) : State :=
  (s.setReg .sp (s.reg .sp - 2)).storeWord (s.sreg .ss) (s.reg .sp - 2) v

/-- The word `Pop16()` reads, at SS:SP (41_data_transfer.md R251). -/
def top (s : State) : Word := s.wordAt (s.sreg .ss) (s.reg .sp)

/-- The state after `Pop16()`: the word has been read and SP has gone up by 2 (41_data_transfer.md R251). -/
def popped (s : State) : State :=
  (s.checkedWord .read (s.sreg .ss) (s.reg .sp)).setReg .sp (s.reg .sp + 2)

/-- The state after a far pointer at `seg:off` has been read (20_memory.md R93). -/
def checkedFar (s : State) (seg off : Word) : State :=
  (s.checkedWord .read seg off).checkedWord .read seg (off + 2)

/-- The state with the interrupt's frame pushed, TF and IF clear and the vector read (60_exceptions.md R580). -/
def framed (s : State) (n : Byte) : State :=
  ((((((s.pushed s.flags16).pushed (s.sreg .cs)).pushed s.ip).setFlag .TF false).setFlag .IF false)).checkedFar 0 (vectorOffset n)

/-- The state in which `raise Interrupt(n)` calls the host: the frame pushed and CS:IP loaded (60_exceptions.md R580, R602). -/
def presented (s : State) (n : Byte) : State :=
  let t := s.framed n
  ((t.setIp (t.wordAt 0 (vectorOffset n))).setSReg .cs (t.wordAt 0 (vectorOffset n + 2))).markRaised.setRunState .interrupted

/-- The state after `raise Interrupt(n)` with a quiet host (60_exceptions.md R580, R582). -/
def dispatched (s : State) (n : Byte) : State := ((s.presented n).told (.interrupt n)).setRunState .idle

end State

/-! ### Operands under the quiet host -/

/-- The byte at an operand's place. -/
def Loc.get8 (l : Loc Reg8) (s : State) : Byte :=
  match l with
  | .reg r => s.reg8 r
  | .mem seg off => s.byteAt seg off

/-- The state after an 8-bit operand has been read. -/
def Loc.seen8 (l : Loc Reg8) (s : State) : State :=
  match l with
  | .reg _ => s
  | .mem seg off => s.checked .read (lin seg off)

/-- The state after an 8-bit operand has been written. -/
def Loc.put8 (l : Loc Reg8) (v : Byte) (s : State) : State :=
  match l with
  | .reg r => s.setReg8 r v
  | .mem seg off => s.storeByte seg off v

/-- The word at an operand's place. -/
def Loc.get16 (l : Loc Reg16) (s : State) : Word :=
  match l with
  | .reg r => s.reg r
  | .mem seg off => s.wordAt seg off

/-- The state after a 16-bit operand has been read. -/
def Loc.seen16 (l : Loc Reg16) (s : State) : State :=
  match l with
  | .reg _ => s
  | .mem seg off => s.checkedWord .read seg off

/-- The state after a 16-bit operand has been written. -/
def Loc.put16 (l : Loc Reg16) (v : Word) (s : State) : State :=
  match l with
  | .reg r => s.setReg r v
  | .mem seg off => s.storeWord seg off v

end Sys2Proof.Machine

namespace Sys2Proof

open Machine

/-- The value of E, 8 bits. -/
def Rm8.value (e : Rm8) (s : State) : Byte := (locate8 e s).get8 s

/-- The state after E has been read, 8 bits. -/
def Rm8.seen (e : Rm8) (s : State) : State := (locate8 e s).seen8 s

/-- The state after `v` has been written to the place E named in `s`; `t` is the state then (40_pipeline.md R211). -/
def Rm8.stored (e : Rm8) (s : State) (v : Byte) (t : State) : State := (locate8 e s).put8 v t

/-- The value of E, 16 bits. -/
def Rm16.value (e : Rm16) (s : State) : Word := (locate16 e s).get16 s

/-- The state after E has been read, 16 bits. -/
def Rm16.seen (e : Rm16) (s : State) : State := (locate16 e s).seen16 s

/-- As `Rm8.stored`, for 16 bits. -/
def Rm16.stored (e : Rm16) (s : State) (v : Word) (t : State) : State := (locate16 e s).put16 v t

/-- The offset word of a far pointer in memory (20_memory.md R93). -/
def MemOp.farOffset (m : MemOp) (s : State) : Word := s.wordAt (memAddr m s).1 (memAddr m s).2

/-- The segment word of a far pointer in memory (20_memory.md R93). -/
def MemOp.farSegment (m : MemOp) (s : State) : Word := s.wordAt (memAddr m s).1 ((memAddr m s).2 + 2)

/-- The state after a far pointer has been read. -/
def MemOp.farSeen (m : MemOp) (s : State) : State := s.checkedFar (memAddr m s).1 (memAddr m s).2

end Sys2Proof

namespace Sys2Proof.Machine

/-! ### The forms of the two-operand instructions (42_arithmetic.md R304) -/

/-- What a two-operand operation gives for its destination and its source: the result, and what becomes of the state. -/
abbrev Effect (w : Nat) := BitVec w → BitVec w → State → BitVec w × State

/-- All forms of one two-operand instruction that has the E,G and E,imm and accumulator,imm forms complete, with the effects `f8` and
`f16` on (destination, source); the destination gets the result unless `keeps`. The value of the destination is that before the
instruction, its place is found once, and every check of a memory operand's permission to be read comes before the flags and the
write. -/
def EGForms (f8 : Effect 8) (f16 : Effect 16) (keeps : Bool)
    (ebGb : Rm8 → Reg8 → Instr) (evGv : Rm16 → Reg16 → Instr) (alIb : Byte → Instr) (axIw : Word → Instr)
    (ebIb : Rm8 → Byte → Instr) (evIw : Rm16 → Word → Instr) : Prop :=
  ∀ s, Quiet s →
    (∀ e g, exec (ebGb e g) s = .next (let r := f8 (e.value s) (s.reg8 g) (e.seen s)
      if keeps then r.2 else e.stored s r.1 r.2)) ∧
    (∀ e g, exec (evGv e g) s = .next (let r := f16 (e.value s) (s.reg g) (e.seen s)
      if keeps then r.2 else e.stored s r.1 r.2)) ∧
    (∀ imm, exec (alIb imm) s = .next (let r := f8 (s.reg8 .al) imm s
      if keeps then r.2 else r.2.setReg8 .al r.1)) ∧
    (∀ imm, exec (axIw imm) s = .next (let r := f16 (s.reg .ax) imm s
      if keeps then r.2 else r.2.setReg .ax r.1)) ∧
    (∀ e imm, exec (ebIb e imm) s = .next (let r := f8 (e.value s) imm (e.seen s)
      if keeps then r.2 else e.stored s r.1 r.2)) ∧
    (∀ e imm, exec (evIw e imm) s = .next (let r := f16 (e.value s) imm (e.seen s)
      if keeps then r.2 else e.stored s r.1 r.2))

/-- The forms with destination G and source E, and with the sign-extended byte immediate of 0x83 (42_arithmetic.md R304). -/
def GEForms (f8 : Effect 8) (f16 : Effect 16) (keeps : Bool)
    (gbEb : Reg8 → Rm8 → Instr) (gvEv : Reg16 → Rm16 → Instr) (evSib : Rm16 → Byte → Instr) : Prop :=
  ∀ s, Quiet s →
    (∀ g e, exec (gbEb g e) s = .next (let r := f8 (s.reg8 g) (e.value s) (e.seen s)
      if keeps then r.2 else r.2.setReg8 g r.1)) ∧
    (∀ g e, exec (gvEv g e) s = .next (let r := f16 (s.reg g) (e.value s) (e.seen s)
      if keeps then r.2 else r.2.setReg g r.1)) ∧
    (∀ e imm, exec (evSib e imm) s = .next (let r := f16 (e.value s) (sext16 imm) (e.seen s)
      if keeps then r.2 else e.stored s r.1 r.2))

/-- `add_w(a, b, c)` as an effect (42_arithmetic.md R302). -/
def addEffect {w : Nat} (carry : Bool) : Effect w := fun a b s =>
  (addResult a b (carry && s.flag .CF), s.mapFlags (addFlags a b (carry && s.flag .CF)))

/-- `sub_w(a, b, c)` as an effect (42_arithmetic.md R303). -/
def subEffect {w : Nat} (borrow : Bool) : Effect w := fun a b s =>
  (subResult a b (borrow && s.flag .CF), s.mapFlags (subFlags a b (borrow && s.flag .CF)))

/-- A bitwise operation as an effect: CF and OF clear, SF, ZF, PF from the result, AF the next draw (44_logic_shift.md R390). -/
def logicEffect {w : Nat} (op : BitVec w → BitVec w → BitVec w) : Effect w := fun a b s =>
  (op a b,
    ((s.mapFlags fun v => putSZP (op a b) (putFlag .OF false (putFlag .CF false v))).setFlag .AF (Config.freeBit s.draws)).drawn)

/-! ### Shifts, multiplication, decimal adjustment -/

/-- A shift or rotate by 1 or by CL, both widths, with the operand found once and written back even with a count of 0
(44_logic_shift.md R400). -/
def ShiftForms (op : ShiftOp) (eb1 ebCl : Rm8 → Instr) (ev1 evCl : Rm16 → Instr) : Prop :=
  ∀ s, Quiet s →
    (∀ e, exec (eb1 e) s = .next (let r := shiftValue op 1 (e.value s) (e.seen s); e.stored s r.1 r.2)) ∧
    (∀ e, exec (ev1 e) s = .next (let r := shiftValue op 1 (e.value s) (e.seen s); e.stored s r.1 r.2)) ∧
    (∀ e, exec (ebCl e) s = .next (let r := shiftValue op (s.reg8 .cl).toNat (e.value s) (e.seen s); e.stored s r.1 r.2)) ∧
    (∀ e, exec (evCl e) s = .next (let r := shiftValue op (s.reg8 .cl).toNat (e.value s) (e.seen s); e.stored s r.1 r.2))

/-- The number of one bits of a byte. -/
def ones (v : Byte) : Nat := (List.range 8).countP fun i => v.getLsbD i

/-! ### Strings under the quiet host (45_string.md) -/

/-- DI or SI after one element of `n` bytes, in the direction of DF (45_string.md R431). -/
def stepIndex (s : State) (i n : Word) : Word := if s.flag .DF then i - n else i + n

/-- The state after one MOVSB body (45_string.md R440). -/
def moved8 (s : State) : State :=
  let src := segOr .ds s
  (((s.checked .read (lin src (s.reg .si))).storeByte (s.sreg .es) (s.reg .di) (s.byteAt src (s.reg .si))).setReg .si
    (stepIndex s (s.reg .si) 1)).setReg .di (stepIndex s (s.reg .di) 1)

/-- The state after one MOVSW body (45_string.md R440). -/
def moved16 (s : State) : State :=
  let src := segOr .ds s
  (((s.checkedWord .read src (s.reg .si)).storeWord (s.sreg .es) (s.reg .di) (s.wordAt src (s.reg .si))).setReg .si
    (stepIndex s (s.reg .si) 2)).setReg .di (stepIndex s (s.reg .di) 2)

/-- The state after one CMPSB body (45_string.md R441). -/
def compared8 (s : State) : State :=
  let src := segOr .ds s
  ((((s.checked .read (lin src (s.reg .si))).checked .read (lin (s.sreg .es) (s.reg .di))).mapFlags
    (subFlags (s.byteAt src (s.reg .si)) (s.byteAt (s.sreg .es) (s.reg .di)) false)).setReg .si
      (stepIndex s (s.reg .si) 1)).setReg .di (stepIndex s (s.reg .di) 1)

/-- The state after one CMPSW body (45_string.md R441). -/
def compared16 (s : State) : State :=
  let src := segOr .ds s
  ((((s.checkedWord .read src (s.reg .si)).checkedWord .read (s.sreg .es) (s.reg .di)).mapFlags
    (subFlags (s.wordAt src (s.reg .si)) (s.wordAt (s.sreg .es) (s.reg .di)) false)).setReg .si
      (stepIndex s (s.reg .si) 2)).setReg .di (stepIndex s (s.reg .di) 2)

/-- The state after one SCASB body (45_string.md R442). -/
def scanned8 (s : State) : State :=
  ((s.checked .read (lin (s.sreg .es) (s.reg .di))).mapFlags
    (subFlags (s.reg8 .al) (s.byteAt (s.sreg .es) (s.reg .di)) false)).setReg .di (stepIndex s (s.reg .di) 1)

/-- The state after one SCASW body (45_string.md R442). -/
def scanned16 (s : State) : State :=
  ((s.checkedWord .read (s.sreg .es) (s.reg .di)).mapFlags
    (subFlags (s.reg .ax) (s.wordAt (s.sreg .es) (s.reg .di)) false)).setReg .di (stepIndex s (s.reg .di) 2)

/-- The state after one LODSB body (45_string.md R443). -/
def loaded8 (s : State) : State :=
  let src := segOr .ds s
  ((s.checked .read (lin src (s.reg .si))).setReg8 .al (s.byteAt src (s.reg .si))).setReg .si (stepIndex s (s.reg .si) 1)

/-- The state after one LODSW body (45_string.md R443). -/
def loaded16 (s : State) : State :=
  let src := segOr .ds s
  ((s.checkedWord .read src (s.reg .si)).setReg .ax (s.wordAt src (s.reg .si))).setReg .si (stepIndex s (s.reg .si) 2)

/-- The state after one STOSB body (45_string.md R444). -/
def filled8 (s : State) : State :=
  (s.storeByte (s.sreg .es) (s.reg .di) (s.reg8 .al)).setReg .di (stepIndex s (s.reg .di) 1)

/-- The state after one STOSW body (45_string.md R444). -/
def filled16 (s : State) : State :=
  (s.storeWord (s.sreg .es) (s.reg .di) (s.reg .ax)).setReg .di (stepIndex s (s.reg .di) 2)

/-- `n` rounds of a body and the decrement of CX (45_string.md R432). -/
def rounds (body : State → State) : Nat → State → State
  | 0, s => s
  | n + 1, s => rounds body n (countDown (body s))

/-- The flag condition of a repeated CMPS or SCAS lets it go on (45_string.md R432). -/
def goesOn (s : State) : Prop := s.flag .ZF = s.repeatWhile

/-! ### What an instruction may write -/

/-- The addresses of the two bytes of a word at `seg:off`. -/
def wordAddrs (seg off : Word) : List Addr := [lin seg off, lin seg (off + 1)]

end Sys2Proof.Machine

namespace Sys2Proof

open Machine

/-- The addresses an 8-bit operand written in state `s` occupies in memory. -/
def Rm8.addrs (e : Rm8) (s : State) : List Addr :=
  match locate8 e s with
  | .reg _ => []
  | .mem seg off => [lin seg off]

/-- The addresses a 16-bit operand written in state `s` occupies in memory. -/
def Rm16.addrs (e : Rm16) (s : State) : List Addr :=
  match locate16 e s with
  | .reg _ => []
  | .mem seg off => wordAddrs seg off

end Sys2Proof

namespace Sys2Proof.Machine

/-- The addresses of the `2*n` bytes that `n` pushes store to (41_data_transfer.md R250). -/
def pushAddrs (s : State) : Nat → List Addr
  | 0 => []
  | n + 1 => wordAddrs (s.sreg .ss) (s.reg .sp - 2 * BitVec.ofNat 16 (n + 1)) ++ pushAddrs s n

/-- The offset of element `k` of a string of `n`-byte elements at DI (45_string.md R431). -/
def elementOffset (s : State) (n : Word) (k : Nat) : Word :=
  if s.flag .DF then s.reg .di - n * BitVec.ofNat 16 k else s.reg .di + n * BitVec.ofNat 16 k

/-- The number of rounds a string instruction that does not test ZF runs (45_string.md R432, R433). -/
def stringCount (s : State) : Nat := if s.rep then (s.reg .cx).toNat else 1

/-- The addresses a byte string instruction stores to. -/
def stringAddrs8 (s : State) : List Addr :=
  (List.range (stringCount s)).map fun k => lin (s.sreg .es) (elementOffset s 1 k)

/-- The addresses a word string instruction stores to. -/
def stringAddrs16 (s : State) : List Addr :=
  (List.range (stringCount s)).flatMap fun k => wordAddrs (s.sreg .es) (elementOffset s 2 k)

/-- Whether the instruction takes the divide fault in this state (42_arithmetic.md R322, R323; 43_bcd.md R364). -/
def divideFaults (i : Instr) (s : State) : Bool :=
  match i with
  | .divEb e => (divideUnsigned (s.reg .ax).toNat (e.value s).toNat 0xFF).isNone
  | .divEv e => (divideUnsigned (dxAx s).toNat (e.value s).toNat 0xFFFF).isNone
  | .idivEb e => (divideSigned (s.reg .ax).toInt (e.value s).toInt 127).isNone
  | .idivEv e => (divideSigned (dxAx s).toInt (e.value s).toInt 32767).isNone
  | .aam base => base == 0
  | _ => false

/-- Whether the instruction raises an interrupt in this state (60_exceptions.md R571). -/
def raises (i : Instr) (s : State) : Bool :=
  match i with
  | .intIb _ | .int3 => true
  | .into => s.flag .OF
  | i => divideFaults i s

/-- The six status flags (10_state.md R41). -/
def statusFlags : List Flag := [.CF, .PF, .AF, .ZF, .SF, .OF]

/-- The nine defined flags (10_state.md R41). -/
def allFlags : List Flag := [.CF, .PF, .AF, .ZF, .SF, .TF, .IF, .DF, .OF]

/-- A general register an instruction may write: an 8-bit register, whose other half it leaves alone, or a whole one. -/
inductive Dest where
  | byte (r : Reg8)
  | word (r : Reg16)
deriving DecidableEq, Repr

/-- The 16-bit register a destination lies in. -/
def Dest.wide : Dest → Reg16
  | .byte r => wideReg r
  | .word r => r

/-- CX, which a repeated string instruction counts down (45_string.md R432). -/
def countDest (s : State) : List Dest := if s.rep then [.word .cx] else []

end Sys2Proof.Machine

namespace Sys2Proof

open Machine

/-- The register an operand E is, if it is one. -/
def Rm8.dests : Rm8 → List Dest
  | .reg r => [.byte r]
  | .mem _ => []

/-- The register an operand E is, if it is one. -/
def Rm16.dests : Rm16 → List Dest
  | .reg r => [.word r]
  | .mem _ => []

end Sys2Proof

namespace Sys2Proof.Machine

/-- The general registers the spec says an instruction run in `s` may write (41_data_transfer.md to 47_system.md). -/
def destsOf (i : Instr) (s : State) : List Dest :=
  match i with
  | .addEbGb e _ | .addEvGv e _ | .orEbGb e _ | .orEvGv e _ | .adcEbGb e _ | .adcEvGv e _ | .sbbEbGb e _
  | .sbbEvGv e _ | .andEbGb e _ | .andEvGv e _ | .subEbGb e _ | .subEvGv e _ | .xorEbGb e _ | .xorEvGv e _
  | .addEbIb e _ | .orEbIb e _ | .adcEbIb e _ | .sbbEbIb e _ | .andEbIb e _ | .subEbIb e _ | .xorEbIb e _
  | .addEvIw e _ | .orEvIw e _ | .adcEvIw e _ | .sbbEvIw e _ | .andEvIw e _ | .subEvIw e _ | .xorEvIw e _
  | .addEvSib e _ | .orEvSib e _ | .adcEvSib e _ | .sbbEvSib e _ | .andEvSib e _ | .subEvSib e _
  | .xorEvSib e _ | .movEbGb e _ | .movEvGv e _ | .movEwSw e _ | .movEbIb e _ | .movEvIw e _ | .rolEb1 e
  | .rorEb1 e | .rclEb1 e | .rcrEb1 e | .shlEb1 e | .shrEb1 e | .sarEb1 e | .rolEv1 e | .rorEv1 e | .rclEv1 e
  | .rcrEv1 e | .shlEv1 e | .shrEv1 e | .sarEv1 e | .rolEbCl e | .rorEbCl e | .rclEbCl e | .rcrEbCl e
  | .shlEbCl e | .shrEbCl e | .sarEbCl e | .rolEvCl e | .rorEvCl e | .rclEvCl e | .rcrEvCl e | .shlEvCl e
  | .shrEvCl e | .sarEvCl e | .notEb e | .negEb e | .notEv e | .negEv e | .incEb e | .decEb e | .incEv e
  | .decEv e => e.dests
  | .addGbEb g _ | .orGbEb g _ | .adcGbEb g _ | .sbbGbEb g _ | .andGbEb g _ | .subGbEb g _ | .xorGbEb g _
  | .movGbEb g _ => [.byte g]
  | .addGvEv g _ | .orGvEv g _ | .adcGvEv g _ | .sbbGvEv g _ | .andGvEv g _ | .subGvEv g _ | .xorGvEv g _
  | .movGvEv g _ | .leaGvM g _ | .lesGvMp g _ | .ldsGvMp g _ => [.word g]
  | .addAlIb _ | .orAlIb _ | .adcAlIb _ | .sbbAlIb _ | .andAlIb _ | .subAlIb _ | .xorAlIb _ | .movAlOb _
  | .inAlIb _ | .daa | .das | .xlat | .inAlDx => [.byte .al]
  | .addAxIw _ | .orAxIw _ | .adcAxIw _ | .sbbAxIw _ | .andAxIw _ | .subAxIw _ | .xorAxIw _ | .movAxOv _
  | .aad _ | .inAxIb _ | .mulEb _ | .imulEb _ | .aaa | .aas | .cbw | .inAxDx => [.word .ax]
  | .incR16 r | .decR16 r | .movR16Iw r _ => [.word r]
  | .pushR16 _ | .callAp _ _ | .retIw _ | .retfIw _ | .intIb _ | .callRel16 _ | .callEv _ | .callMp _
  | .pushEv _ | .pushEs | .popEs | .pushCs | .pushSs | .popSs | .pushDs | .popDs | .pushf | .popf | .ret
  | .retf | .int3 | .iret => [.word .sp]
  | .popR16 r => [.word .sp, .word r]
  | .xchgEbGb e g => .byte g :: e.dests
  | .xchgEvGv e g => .word g :: e.dests
  | .popEv e => .word .sp :: e.dests
  | .xchgAxR16 r => [.word .ax, .word r]
  | .movR8Ib r _ => [.byte r]
  | .aam base => if base == 0 then [.word .sp] else [.word .ax]
  | .loopne _ | .loope _ | .loop _ => [.word .cx]
  | .divEb e => if divideFaults (.divEb e) s then [.word .sp] else [.word .ax]
  | .idivEb e => if divideFaults (.idivEb e) s then [.word .sp] else [.word .ax]
  | .mulEv _ | .imulEv _ => [.word .ax, .word .dx]
  | .divEv e => if divideFaults (.divEv e) s then [.word .sp] else [.word .ax, .word .dx]
  | .idivEv e => if divideFaults (.idivEv e) s then [.word .sp] else [.word .ax, .word .dx]
  | .cwd => [.word .dx]
  | .lahf => [.byte .ah]
  | .movsb | .movsw | .cmpsb | .cmpsw => [.word .si, .word .di] ++ countDest s
  | .stosb | .stosw | .scasb | .scasw => [.word .di] ++ countDest s
  | .lodsb => [.word .si, .byte .al] ++ countDest s
  | .lodsw => [.word .si, .word .ax] ++ countDest s
  | .into => if s.flag .OF then [.word .sp] else []
  | _ => []

/-- The flags the spec says an instruction run in `s` may write (10_state.md R43). -/
def flagsOf (i : Instr) (s : State) : List Flag :=
  match i with
  | .addEbGb _ _ | .addEvGv _ _ | .addGbEb _ _ | .addGvEv _ _ | .addAlIb _ | .addAxIw _ | .orEbGb _ _
  | .orEvGv _ _ | .orGbEb _ _ | .orGvEv _ _ | .orAlIb _ | .orAxIw _ | .adcEbGb _ _ | .adcEvGv _ _
  | .adcGbEb _ _ | .adcGvEv _ _ | .adcAlIb _ | .adcAxIw _ | .sbbEbGb _ _ | .sbbEvGv _ _ | .sbbGbEb _ _
  | .sbbGvEv _ _ | .sbbAlIb _ | .sbbAxIw _ | .andEbGb _ _ | .andEvGv _ _ | .andGbEb _ _ | .andGvEv _ _
  | .andAlIb _ | .andAxIw _ | .subEbGb _ _ | .subEvGv _ _ | .subGbEb _ _ | .subGvEv _ _ | .subAlIb _
  | .subAxIw _ | .xorEbGb _ _ | .xorEvGv _ _ | .xorGbEb _ _ | .xorGvEv _ _ | .xorAlIb _ | .xorAxIw _
  | .cmpEbGb _ _ | .cmpEvGv _ _ | .cmpGbEb _ _ | .cmpGvEv _ _ | .cmpAlIb _ | .cmpAxIw _ | .addEbIb _ _
  | .orEbIb _ _ | .adcEbIb _ _ | .sbbEbIb _ _ | .andEbIb _ _ | .subEbIb _ _ | .xorEbIb _ _ | .cmpEbIb _ _
  | .addEvIw _ _ | .orEvIw _ _ | .adcEvIw _ _ | .sbbEvIw _ _ | .andEvIw _ _ | .subEvIw _ _ | .xorEvIw _ _
  | .cmpEvIw _ _ | .addEvSib _ _ | .orEvSib _ _ | .adcEvSib _ _ | .sbbEvSib _ _ | .andEvSib _ _
  | .subEvSib _ _ | .xorEvSib _ _ | .cmpEvSib _ _ | .testEbGb _ _ | .testEvGv _ _ | .testAlIb _ | .testAxIw _
  | .shlEb1 _ | .shrEb1 _ | .sarEb1 _ | .shlEv1 _ | .shrEv1 _ | .sarEv1 _ | .aad _ | .testEbIb _ _ | .negEb _
  | .mulEb _ | .imulEb _ | .testEvIw _ _ | .negEv _ | .mulEv _ | .imulEv _ | .daa | .das | .aaa | .aas
  | .cmpsb | .cmpsw | .scasb | .scasw => statusFlags
  | .incR16 _ | .decR16 _ | .incEb _ | .decEb _ | .incEv _ | .decEv _ => [.PF, .AF, .ZF, .SF, .OF]
  | .intIb _ | .int3 => [.TF, .IF]
  | .rolEb1 _ | .rorEb1 _ | .rclEb1 _ | .rcrEb1 _ | .rolEv1 _ | .rorEv1 _ | .rclEv1 _ | .rcrEv1 _ => [.CF, .OF]
  | .rolEbCl _ | .rorEbCl _ | .rclEbCl _ | .rcrEbCl _ | .rolEvCl _ | .rorEvCl _ | .rclEvCl _ | .rcrEvCl _ =>
    if s.reg8 .cl = 0 then [] else [.CF, .OF]
  | .shlEbCl _ | .shrEbCl _ | .sarEbCl _ | .shlEvCl _ | .shrEvCl _ | .sarEvCl _ =>
    if s.reg8 .cl = 0 then [] else statusFlags
  | .aam base => if base == 0 then statusFlags ++ [.TF, .IF] else statusFlags
  | .divEb e => if divideFaults (.divEb e) s then statusFlags ++ [.TF, .IF] else statusFlags
  | .idivEb e => if divideFaults (.idivEb e) s then statusFlags ++ [.TF, .IF] else statusFlags
  | .divEv e => if divideFaults (.divEv e) s then statusFlags ++ [.TF, .IF] else statusFlags
  | .idivEv e => if divideFaults (.idivEv e) s then statusFlags ++ [.TF, .IF] else statusFlags
  | .popf | .iret => allFlags
  | .sahf => [.CF, .PF, .AF, .ZF, .SF]
  | .into => if s.flag .OF then [.TF, .IF] else []
  | .cmc | .clc | .stc => [.CF]
  | .cli | .sti => [.IF]
  | .cld | .std => [.DF]
  | _ => []

/-- The segment registers the spec says an instruction run in `s` may write (10_state.md R33). -/
def segsOf (i : Instr) (s : State) : List SReg :=
  match i with
  | .movEsEw _ | .lesGvMp _ _ | .popEs => [.es]
  | .movSsEw _ | .popSs => [.ss]
  | .movDsEw _ | .ldsGvMp _ _ | .popDs => [.ds]
  | .callAp _ _ | .retfIw _ | .intIb _ | .jmpAp _ _ | .callMp _ | .jmpMp _ | .retf | .int3 | .iret => [.cs]
  | .aam base => if base == 0 then [.cs] else []
  | .divEb e => if divideFaults (.divEb e) s then [.cs] else []
  | .idivEb e => if divideFaults (.idivEb e) s then [.cs] else []
  | .divEv e => if divideFaults (.divEv e) s then [.cs] else []
  | .idivEv e => if divideFaults (.idivEv e) s then [.cs] else []
  | .into => if s.flag .OF then [.cs] else []
  | _ => []

/-- Whether the spec says an instruction run in `s` may write IP (10_state.md R36). -/
def mayJump (i : Instr) (s : State) : Bool :=
  match i with
  | .jo _ | .jno _ | .jb _ | .jnb _ | .je _ | .jne _ | .jbe _ | .ja _ | .js _ | .jns _ | .jp _ | .jnp _
  | .jl _ | .jge _ | .jle _ | .jg _ | .callAp _ _ | .retIw _ | .retfIw _ | .intIb _ | .loopne _ | .loope _
  | .loop _ | .jcxz _ | .callRel16 _ | .jmpRel16 _ | .jmpAp _ _ | .jmpRel8 _ | .callEv _ | .callMp _
  | .jmpEv _ | .jmpMp _ | .ret | .retf | .int3 | .iret => true
  | .aam base => base == 0
  | .divEb e => divideFaults (.divEb e) s
  | .idivEb e => divideFaults (.idivEb e) s
  | .divEv e => divideFaults (.divEv e) s
  | .idivEv e => divideFaults (.idivEv e) s
  | .into => s.flag .OF
  | _ => false

/-- The addresses of every byte the spec says an instruction run in `s` stores to (20_memory.md R92; 41_data_transfer.md to
47_system.md). -/
def storesOf (i : Instr) (s : State) : List Addr :=
  match i with
  | .addEbGb e _ | .addEvGv e _ | .orEbGb e _ | .orEvGv e _ | .adcEbGb e _ | .adcEvGv e _ | .sbbEbGb e _
  | .sbbEvGv e _ | .andEbGb e _ | .andEvGv e _ | .subEbGb e _ | .subEvGv e _ | .xorEbGb e _ | .xorEvGv e _
  | .addEbIb e _ | .orEbIb e _ | .adcEbIb e _ | .sbbEbIb e _ | .andEbIb e _ | .subEbIb e _ | .xorEbIb e _
  | .addEvIw e _ | .orEvIw e _ | .adcEvIw e _ | .sbbEvIw e _ | .andEvIw e _ | .subEvIw e _ | .xorEvIw e _
  | .addEvSib e _ | .orEvSib e _ | .adcEvSib e _ | .sbbEvSib e _ | .andEvSib e _ | .subEvSib e _
  | .xorEvSib e _ | .xchgEbGb e _ | .xchgEvGv e _ | .movEbGb e _ | .movEvGv e _ | .movEwSw e _ | .popEv e
  | .movEbIb e _ | .movEvIw e _ | .rolEb1 e | .rorEb1 e | .rclEb1 e | .rcrEb1 e | .shlEb1 e | .shrEb1 e
  | .sarEb1 e | .rolEv1 e | .rorEv1 e | .rclEv1 e | .rcrEv1 e | .shlEv1 e | .shrEv1 e | .sarEv1 e | .rolEbCl e
  | .rorEbCl e | .rclEbCl e | .rcrEbCl e | .shlEbCl e | .shrEbCl e | .sarEbCl e | .rolEvCl e | .rorEvCl e
  | .rclEvCl e | .rcrEvCl e | .shlEvCl e | .shrEvCl e | .sarEvCl e | .notEb e | .negEb e | .notEv e | .negEv e
  | .incEb e | .decEb e | .incEv e | .decEv e => e.addrs s
  | .pushR16 _ | .callRel16 _ | .callEv _ | .pushEv _ | .pushEs | .pushCs | .pushSs | .pushDs | .pushf =>
    pushAddrs s 1
  | .callAp _ _ | .callMp _ => pushAddrs s 2
  | .movObAl off => [lin (segOr .ds s) off]
  | .movOvAx off => wordAddrs (segOr .ds s) off
  | .intIb _ | .int3 => pushAddrs s 3
  | .aam base => if base == 0 then pushAddrs s 3 else []
  | .divEb e => if divideFaults (.divEb e) s then pushAddrs s 3 else []
  | .idivEb e => if divideFaults (.idivEb e) s then pushAddrs s 3 else []
  | .divEv e => if divideFaults (.divEv e) s then pushAddrs s 3 else []
  | .idivEv e => if divideFaults (.idivEv e) s then pushAddrs s 3 else []
  | .movsb | .stosb => stringAddrs8 s
  | .movsw | .stosw => stringAddrs16 s
  | .into => if s.flag .OF then pushAddrs s 3 else []
  | _ => []

/-- Whether the instruction writes no word of FLAGS as a whole, so that the reserved bits stay as they are. -/
def writesFlagsWhole : Instr → Bool
  | .popf | .iret | .sahf => true
  | _ => false

end Sys2Proof.Machine

namespace Sys2Proof

open Machine

/-! ### What the step adds around an instruction -/

/-- The memory operand of the instruction's mod/reg/rm byte, if it has one (30_encoding.md R141, R142). -/
def Instr.memOperand (i : Instr) : Option MemOp :=
  if hasModrm i.body.op && modField i.body.modrm != 3 then some i.body.mem else none

/-- The hook call for a field of `n` bytes (40_pipeline.md R201; 60_exceptions.md R600, R601). -/
def fieldCall (count : BitVec 64) : Nat → Word → List HostCall
  | 0, _ => []
  | 1, v => [.fetched8 (loByte v) count]
  | _, v => [.fetched16 v count]

/-- The hook calls of one instruction or prefix byte, oldest first: one for each 8-bit field and one for each 16-bit field
(40_pipeline.md R201). -/
def Instr.fetchCalls (count : BitVec 64) (i : Instr) : List HostCall :=
  .fetched8 i.body.op count :: (if hasModrm i.body.op then [.fetched8 i.body.modrm count] else []) ++
    fieldCall count (dispLenOf i.body.op i.body.modrm) i.body.disp ++
    fieldCall count (immLen1 i.body.op i.body.modrm) i.body.imm ++
    fieldCall count (immLen2 i.body.op i.body.modrm) i.body.seg

/-- The segment an override prefix names (40_pipeline.md R203). -/
def Instr.overrides : Instr → Option SReg
  | .segEs => some .es
  | .segCs => some .cs
  | .segSs => some .ss
  | .segDs => some .ds
  | _ => none

/-- The override a prefix chain leaves pending, given the one before it: the last one named (40_pipeline.md R206). -/
def chainOverride (before : Option SReg) (ps : List Instr) : Option SReg :=
  ps.foldl (fun o p => p.overrides.or o) before

/-- The repeat condition a prefix chain leaves pending, given the one before it: that of the last of 0xF2 and 0xF3; none when no repeat
prefix is pending (40_pipeline.md R204, R206). -/
def chainRepeat (before : Option Bool) (ps : List Instr) : Option Bool :=
  ps.foldl (fun o p => if p = .rep then some true else if p = .repne then some false else o) before

/-- The bytes of a prefix chain and its instruction. -/
def chainBytes (ps : List Instr) (i : Instr) : List Byte := ps.flatMap encode ++ encode i

end Sys2Proof

namespace Sys2Proof.Machine

/-- The code bytes `bytes` at CS:IP are all executable (20_memory.md R85). -/
def executableAt (s : State) : List Byte → Word → Prop
  | [], _ => True
  | _ :: rest, off => s.allows .execute (lin (s.sreg .cs) off) = true ∧ executableAt s rest (off + 1)

/-- The state `u` in which the step runs `i`, when the prefixes `ps` and then `i` stand at CS:IP in `s`: the fetch has moved IP past all of
their bytes, the prefixes have set the transient fields, E is decoded and the override consumed, and nothing else has changed but the
host's record (40_pipeline.md R200-R207; 30_encoding.md R145, R149). -/
structure Fetched (ps : List Instr) (i : Instr) (s u : State) : Prop where
  regs : u.regs = s.regs
  sregs : u.sregs = s.sregs
  flags : u.flags = s.flags
  mem : u.mem = s.mem
  perm : u.perm = s.perm
  singleStep : u.singleStep = s.singleStep
  instructionCount : u.instructionCount = s.instructionCount
  draws : u.draws = s.draws
  ip : u.ip = s.ip + BitVec.ofNat 16 (chainBytes ps i).length
  stepBytes : u.stepBytes = chainBytes ps i
  runState : u.runState = .executing
  raised : u.raised = false
  segOverride : u.segOverride = if hasModrm i.body.op then none else chainOverride none ps
  rep : u.rep = (chainRepeat none ps).isSome
  repeatWhile : u.repeatWhile = (chainRepeat none ps).getD false
  lastPrefixRep : u.lastPrefixRep = ((ps.getLast? == some .rep) || (ps.getLast? == some .repne))
  ea : u.ea = i.memOperand.map fun m => resolve m { s with segOverride := chainOverride none ps }
  atInterrupt : u.atInterrupt = s.atInterrupt
  quiet : Quiet u
  calls : executableAt s (chainBytes ps i) s.ip →
    u.calls = ((ps ++ [i]).flatMap (Instr.fetchCalls s.instructionCount)).reverse ++ s.calls

/-! ### The invariant -/

/-- What holds of every state between steps: FLAGS has its reserved bits, memory and permissions are in their canonical form, every
permission byte has three bits, and the run state is Idle or Halted (10_state.md R40, R52; 20_memory.md R84, R85). -/
structure Inv (s : State) : Prop where
  flags : maskFlags s.flags = s.flags
  mem : Memory.wf s.mem = true
  perm : Permissions.wf s.perm = true
  permBits : ∀ c ∈ s.perm, c.2 &&& 0xF8 = 0
  runState : s.runState = .idle ∨ s.runState = .halted

end Sys2Proof.Machine
end

