-- ==== Sys2Proof/Certificates/Slice0/Obligations.lean ====
section
/-! DEFINITION. The statements for the provers. A `Quiet` host returns from every call and changes nothing, but past its script it may do
anything at an `interrupt` call, as the default host of 60_exceptions.md R609 may (log entry 29); what a host that is `QuietAtInterrupt`
too leaves is said separately. The statements that hold for every host say so by assuming neither. -/

open Sys2Proof Sys2Proof.Machine

/-! ### Encoding (30_encoding.md) -/

/-- No bit of an encoding is dropped: the bytes of a well-formed instruction decode to it, whatever follows them
(30_encoding.md R130, R165). -/
def Obligations.EncodedInstructionDecodesBack : Prop :=
  ∀ (i : Instr) (rest : List Byte), i.wf = true → decode (encode i ++ rest) = .ok (i, rest)

/-- Each instruction has one encoding: bytes that decode to an instruction are its encoding and what follows, and the instruction is
well-formed (30_encoding.md R165). -/
def Obligations.DecodedBytesEncodeBack : Prop :=
  ∀ (bytes rest : List Byte) (i : Instr), decode bytes = .ok (i, rest) → i.wf = true ∧ encode i ++ rest = bytes

/-- Every instruction is 1 to 6 bytes long without prefixes, and six bytes are always enough to decode one: every encoding has a row
(30_encoding.md R130, R165, R170). -/
def Obligations.EveryByteSequenceDecodes : Prop :=
  (∀ i : Instr, 1 ≤ (encode i).length ∧ (encode i).length ≤ 6) ∧
  (∀ bytes : List Byte, 6 ≤ bytes.length → ∃ i rest, decode bytes = .ok (i, rest))

/-- Words written out from the encodings of 30_encoding.md, one or more of each family of 41_data_transfer.md to 47_system.md, BCD and strings
among them, and of the prefixes and the invalid rows. -/
def Obligations.WordsDecodeAsTheSpecSays : Prop :=
  decode [0x01, 0xD8] = .ok (.addEvGv (.reg .ax) .bx, []) ∧
  decode [0x83, 0xC0, 0xFF] = .ok (.addEvSib (.reg .ax) 0xFF, []) ∧
  decode [0xF6, 0x06, 0x34, 0x12, 0x05] = .ok (.testEbIb (.mem (.direct 0x1234)) 0x05, []) ∧
  decode [0xF7, 0x58, 0xFE] = .ok (.negEv (.mem (.disp8 .bxSi 0xFE)), []) ∧
  decode [0xC7, 0x86, 0x00, 0x01, 0x34, 0x12] = .ok (.movEvIw (.mem (.disp16 .bp 0x0100)) 0x1234, []) ∧
  decode [0x8E, 0xD8] = .ok (.movDsEw (.reg .ax), []) ∧
  decode [0x8E, 0xC8] = .ok (.inv8Ecs (.reg .ax), []) ∧
  decode [0xD2, 0xE8] = .ok (.shrEbCl (.reg .al), []) ∧
  decode [0xD0, 0xD8] = .ok (.rcrEb1 (.reg .al), []) ∧
  decode [0x27] = .ok (.daa, []) ∧ decode [0x2F] = .ok (.das, []) ∧
  decode [0x37] = .ok (.aaa, []) ∧ decode [0x3F] = .ok (.aas, []) ∧
  decode [0xD4, 0x10] = .ok (.aam 0x10, []) ∧ decode [0xD5, 0x0A] = .ok (.aad 0x0A, []) ∧
  decode [0xA4] = .ok (.movsb, []) ∧ decode [0xA7] = .ok (.cmpsw, []) ∧ decode [0xAE] = .ok (.scasb, []) ∧
  decode [0xAD] = .ok (.lodsw, []) ∧ decode [0xAA] = .ok (.stosb, []) ∧
  decode [0x9A, 0x00, 0x02, 0x00, 0x30] = .ok (.callAp 0x0200 0x3000, []) ∧
  decode [0x70, 0x10] = .ok (.jo 0x10, []) ∧
  decode [0xF3, 0xAA] = .ok (.rep, [0xAA]) ∧
  decode [0xCD, 0x21] = .ok (.intIb 0x21, []) ∧
  decode [0xD9, 0x06, 0x34, 0x12] = .ok (.esc 1 0 (.mem (.direct 0x1234)), [])

/-! ### The step (40_pipeline.md) -/

/-- When the bytes at CS:IP decode to an instruction that is no prefix, the step is that instruction's exec, at the state the fetch
leaves, and then the end of the step (40_pipeline.md R200-R202, R220). -/
def Obligations.StepRunsDecodedInstruction : Prop :=
  ∀ (s : State) (i : Instr) (rest : List Byte), s.runState = .idle → Quiet s → isPrefix i = false →
    decode (s.codeBytes 6 s.ip) = .ok (i, rest) →
    ∃ u, Fetched [] i s u ∧ step s = thenDo (exec i u) (endStep (s.flag .TF) i)

/-- A prefix chain and its instruction are one step, for any number of prefixes short of a whole segment of them (40_pipeline.md
R203-R207; log entry 9). -/
def Obligations.PrefixChainIsOneStep : Prop :=
  ∀ (s : State) (ps : List Instr) (i : Instr), s.runState = .idle → Quiet s → i.wf = true → isPrefix i = false →
    (∀ p ∈ ps, isPrefix p = true) → ps.length ≤ 0x10000 →
    s.codeBytes (chainBytes ps i).length s.ip = chainBytes ps i →
    ∃ u, Fetched ps i s u ∧ step s = thenDo (exec i u) (endStep (s.flag .TF) i)

/-- A step is taken in run state Idle only; from Halted no step runs (40_pipeline.md R200; 47_system.md R530). Where the manual has no step,
the model's step is a fault (log entry 12). -/
def Obligations.StepNeedsIdle : Prop :=
  ∀ s : State, (s.runState = .halted → step s = .fault .halted) ∧
    (s.runState ≠ .idle → s.runState ≠ .halted → step s = .fault (.notIdle s.runState)) ∧
    (∀ t, step s = .next t → s.runState = .idle)

/-- Whatever the host does, a step ends Idle with the counter one higher, or Halted with the counter as it was (40_pipeline.md R220). -/
def Obligations.StepEndsIdleAndCountsOrHalted : Prop :=
  ∀ s t : State, step s = .next t →
    (t.runState = .idle ∧ t.instructionCount = s.instructionCount + 1) ∨
    (t.runState = .halted ∧ t.instructionCount = s.instructionCount)

/-- The end of a step: nothing after a HLT; else Idle, the counter, and, exactly when SINGLE_STEP is set, TF was set at the start, no
interrupt was raised and the instruction is no MOV Sreg or POP Sreg, the trap of vector 1 (40_pipeline.md R220; 60_exceptions.md
R590). -/
def Obligations.SingleStepTrap : Prop :=
  ∀ (s : State) (i : Instr) (tf : Bool), Quiet s →
    (s.runState = .halted → endStep tf i s = .next s) ∧
    (s.runState ≠ .halted → s.singleStep = true ∧ tf = true ∧ s.raised = false ∧
        (∀ e, i ≠ .movEsEw e ∧ i ≠ .movSsEw e ∧ i ≠ .movDsEw e) ∧ i ≠ .popEs ∧ i ≠ .popSs ∧ i ≠ .popDs →
      endStep tf i s = thenDo (callHost (.interrupt 1) (((s.setRunState .idle).counted).presented 1))
        (fun t => .next (t.setRunState .idle)) ∧
      (QuietAtInterrupt s → endStep tf i s = .next (((s.setRunState .idle).counted).dispatched 1))) ∧
    (s.runState ≠ .halted → s.singleStep = false ∨ tf = false ∨ s.raised = true ∨
        (∃ e, i = .movEsEw e ∨ i = .movSsEw e ∨ i = .movDsEw e) ∨ i = .popEs ∨ i = .popSs ∨ i = .popDs →
      endStep tf i s = .next ((s.setRunState .idle).counted))

/-- An instruction stops only where the host does not return, or at the model's bound on a repeated string instruction (log entry 11); no instruction is refused; with a host that returns from every call none stops at a call; and with
a quiet host, quiet at the interrupt the instruction raises if it raises one, every instruction answers a next state (40_pipeline.md R231,
R232; 60_exceptions.md R570). -/
def Obligations.InstructionsStopOnlyAtTheHost : Prop :=
  ∀ (i : Instr) (s : State),
    (∀ r, exec i s ≠ .refused r) ∧
    (∀ f, exec i s = .fault f → (∃ c t, f = .hostStopped c t) ∨ f = .repeatBound) ∧
    ((∀ r ∈ s.host, r.returns = true) → (∃ r, s.atInterrupt = some r ∧ r.returns = true) →
      ∀ c t, exec i s ≠ .fault (.hostStopped c t)) ∧
    (Quiet s → (raises i s = true → QuietAtInterrupt s) → ∃ t, exec i s = .next t)

/-! ### Reset and the invariant (10_state.md) -/

/-- The values after reset that the spec gives (10_state.md R60). -/
def Obligations.ResetValues : Prop :=
  (∀ r, State.reset.reg r = 0) ∧ State.reset.sreg .cs = 0xF000 ∧ State.reset.sreg .ds = 0 ∧ State.reset.sreg .es = 0 ∧
  State.reset.sreg .ss = 0 ∧ State.reset.ip = 0xFFF0 ∧ State.reset.flags = 0xF002 ∧ State.reset.segOverride = none ∧
  State.reset.rep = false ∧ State.reset.repeatWhile = false ∧ State.reset.instructionCount = 0 ∧
  State.reset.runState = .idle ∧ (∀ k a, State.reset.allows k a = true) ∧
  lin (State.reset.sreg .cs) State.reset.ip = 0xFFFF0

/-- The invariant holds after reset. -/
def Obligations.InvAtReset : Prop := Inv State.reset

/-- Every step keeps the invariant, whatever the host does: FLAGS keeps its reserved bits, memory and permissions their canonical form,
and the run state between steps is Idle or Halted; and where the host ends the run in the middle of a step, the state at that point keeps
all of it but the run state (10_state.md R40, R52; 20_memory.md R84, R85; 40_pipeline.md R231; 60_exceptions.md R609). -/
def Obligations.StepKeepsInv : Prop :=
  ∀ s : State, Inv s →
    (∀ t, step s = .next t → Inv t) ∧
    (∀ c t, step s = .fault (.hostStopped c t) → maskFlags t.flags = t.flags ∧ Memory.wf t.mem = true ∧ Permissions.wf t.perm = true ∧
      ∀ p ∈ t.perm, p.2 &&& 0xF8 = 0)

/-! ### Memory (20_memory.md) -/

/-- The linear address, and that the byte after `seg:0xFFFF` is `seg:0x0000` (20_memory.md R80-R82). -/
def Obligations.LinearAddress : Prop :=
  (∀ seg off : Word, (lin seg off).toNat = ((seg.toNat <<< 4) + off.toNat) % 0x100000) ∧
  lin 0xFFFF 0x0010 = 0x00000 ∧ lin 0xFFFF 0xFFFF = 0x0FFEF ∧
  (∀ seg : Word, lin seg (0xFFFF + 1) = lin seg 0)

/-- A read of a byte returns the value last written to it, and a write changes no other byte. A word store puts the low byte at its offset
and the high byte at the next offset, which wraps in the segment; no other byte changes; reading the word back gives it
(20_memory.md R81, R84, R92, R94). -/
def Obligations.MemoryReadsLastWrite : Prop :=
  (∀ (s : State) (a b : Addr) (v : Byte), Memory.wf s.mem = true →
    (s.poke a v).peek b = (if b = a then v else s.peek b) ∧ Memory.wf (s.poke a v).mem = true) ∧
  ∀ (s : State) (seg off v : Word), Quiet s → Memory.wf s.mem = true →
    ∃ t, memWrite16 seg off v s = .next t ∧ t.peek (lin seg off) = v.setWidth 8 ∧
      t.peek (lin seg (off + 1)) = v.extractLsb' 8 8 ∧
      (∀ a, a ≠ lin seg off → a ≠ lin seg (off + 1) → t.peek a = s.peek a) ∧
      (∃ u, memRead16 seg off t = .next (v, u)) ∧ Memory.wf t.mem = true

/-- The three checked accessors report a missing permission before the access and still perform it, once for each byte that lacks it
(20_memory.md R86-R92; 60_exceptions.md R606). -/
def Obligations.MissingPermissionIsReported : Prop :=
  ∀ (s : State) (a : Addr) (v : Byte), Quiet s →
    readByte a s = .next (s.peek a, if s.permAt a &&& 0x02 = 0 then s.told (.invalidMemoryAccess a 0x02) else s) ∧
    writeByte a v s = .next ((if s.permAt a &&& 0x04 = 0 then s.told (.invalidMemoryAccess a 0x04) else s).poke a v) ∧
    fetchByte a s = .next (s.peek a, if s.permAt a &&& 0x01 = 0 then s.told (.invalidMemoryAccess a 0x01) else s) ∧
    (∀ seg off : Word, s.permAt (lin seg off) &&& 0x02 = 0 → s.permAt (lin seg (off + 1)) &&& 0x02 = 0 →
      memRead16 seg off s = .next (s.wordAt seg off,
        (s.told (.invalidMemoryAccess (lin seg off) 0x02)).told (.invalidMemoryAccess (lin seg (off + 1)) 0x02)))

/-- A call of the host has the effect of its reply's acts, each report met in them being a call of its own; then the run goes on, or, where
the host does not return, ends with the state at that point. The reply is the next of the script; past the script the host is passive, but
at an `interrupt` call it does what `atInterrupt` says, or, where that is none, what the next draw says. A port read gives the reply's
answer, or the next draw (40_pipeline.md R231; 60_exceptions.md R609; log entries 3, 4, 5, 7, 22, 26, 29; that the host is passive at `halt`,
and in a port read but for the answer, is the model's choice, log entry 31). -/
def Obligations.HostCallStopsOrActs : Prop :=
  ∀ (s : State) (c : HostCall),
    callHost c s = thenDo (hostActs report (s.replyTo c).acts (s.heard c)) (fun t =>
      if (s.replyTo c).returns then .next t else .fault (.hostStopped c t)) ∧
    (∀ r rest, s.host = r :: rest → s.replyTo c = r ∧ s.heard c = { s with host := rest }.logCall c) ∧
    (s.host = [] → c.isInterrupt = false → callHost c s = .next (s.logCall c)) ∧
    (s.host = [] → c.isInterrupt = true → ∀ r, s.atInterrupt = some r → s.replyTo c = r ∧ s.heard c = s.logCall c) ∧
    (s.host = [] → c.isInterrupt = true → s.atInterrupt = none → s.replyTo c = freeReply s.draws ∧ s.heard c = (s.logCall c).drawn) ∧
    (∀ v, (s.replyTo c).answer = some v → portRead c s = thenDo (callHost c s) fun t => .next (v, t)) ∧
    ((s.replyTo c).answer = none → portRead c s = thenDo (callHost c s) fun t => .next (Config.freeWord t.draws, t.drawn))

/-! ### Flags (10_state.md, 42_arithmetic.md, 44_logic_shift.md) -/

/-- Writing FLAGS as a whole keeps the nine defined bits and forces the reserved ones; writing one flag changes that bit only
(10_state.md R40, R41). -/
def Obligations.FlagsRegisterWrites : Prop :=
  (∀ (s : State) (v : Word), (s.setFlags16 v).flags = (v &&& 0x0FD5) ||| 0xF002) ∧
  (∀ v : Word, maskFlags (maskFlags v) = maskFlags v) ∧
  (∀ (s : State) (f : Flag) (b : Bool) (n : Nat),
    (s.setFlag f b).flags.getLsbD n = if n = f.bit then b else s.flags.getLsbD n) ∧
  (∀ (s : State) (f : Flag) (b : Bool), maskFlags s.flags = s.flags → maskFlags (s.setFlag f b).flags = (s.setFlag f b).flags)

/-- The result and the flags of `add_w`, in integers: the sum wrapped, CF the unsigned carry, AF the carry out of bit 3, OF the signed
overflow, SF, ZF, PF of the result; the control flags and the reserved bits stay (42_arithmetic.md R300-R302, R330). -/
def Obligations.AdditionFlags : Prop :=
  ∀ (w : Nat) (a b : BitVec w) (c : Bool) (v : Word), w = 8 ∨ w = 16 →
    (addResult a b c).toNat = (a.toNat + b.toNat + c.toNat) % 2 ^ w ∧
    getFlag .CF (addFlags a b c v) = decide (2 ^ w ≤ a.toNat + b.toNat + c.toNat) ∧
    getFlag .AF (addFlags a b c v) = decide (16 ≤ a.toNat % 16 + b.toNat % 16 + c.toNat) ∧
    getFlag .OF (addFlags a b c v) =
      decide (a.toInt + b.toInt + c.toNat < -(2 ^ (w - 1)) ∨ 2 ^ (w - 1) ≤ a.toInt + b.toInt + c.toNat) ∧
    getFlag .SF (addFlags a b c v) = decide (2 ^ (w - 1) ≤ (addResult a b c).toNat) ∧
    getFlag .ZF (addFlags a b c v) = decide ((addResult a b c).toNat = 0) ∧
    getFlag .PF (addFlags a b c v) = decide (ones ((addResult a b c).setWidth 8) % 2 = 0) ∧
    (∀ n, n ∉ statusFlags.map Flag.bit → (addFlags a b c v).getLsbD n = v.getLsbD n)

/-- As `AdditionFlags` for `sub_w`: CF the unsigned borrow, AF the borrow into bit 4 (42_arithmetic.md R300, R301, R303, R330). -/
def Obligations.SubtractionFlags : Prop :=
  ∀ (w : Nat) (a b : BitVec w) (c : Bool) (v : Word), w = 8 ∨ w = 16 →
    ((subResult a b c).toNat : Int) = ((a.toNat : Int) - b.toNat - c.toNat) % 2 ^ w ∧
    getFlag .CF (subFlags a b c v) = decide (a.toNat < b.toNat + c.toNat) ∧
    getFlag .AF (subFlags a b c v) = decide (a.toNat % 16 < b.toNat % 16 + c.toNat) ∧
    getFlag .OF (subFlags a b c v) =
      decide (a.toInt - b.toInt - c.toNat < -(2 ^ (w - 1)) ∨ 2 ^ (w - 1) ≤ a.toInt - b.toInt - c.toNat) ∧
    getFlag .SF (subFlags a b c v) = decide (2 ^ (w - 1) ≤ (subResult a b c).toNat) ∧
    getFlag .ZF (subFlags a b c v) = decide ((subResult a b c).toNat = 0) ∧
    getFlag .PF (subFlags a b c v) = decide (ones ((subResult a b c).setWidth 8) % 2 = 0) ∧
    (∀ n, n ∉ statusFlags.map Flag.bit → (subFlags a b c v).getLsbD n = v.getLsbD n)

/-- What `count` steps of each shift and rotate leave in the operand and in CF, for every count, and OF by R408: shifts shift by the
count, rotates rotate by it, and RCL and RCR rotate the w + 1 bits CF:operand by it, so w + 1 steps restore both (44_logic_shift.md
R400-R408). -/
def Obligations.ShiftStepsByCount : Prop :=
  ∀ (w n : Nat) (v : BitVec w) (f : Word), w = 8 ∨ w = 16 →
    (shiftSteps .shl n (v, f)).1 = v <<< n ∧
    (shiftSteps .shr n (v, f)).1 = v >>> n ∧
    (shiftSteps .sar n (v, f)).1 = v.sshiftRight n ∧
    (shiftSteps .rol n (v, f)).1 = v.rotateLeft n ∧
    (shiftSteps .ror n (v, f)).1 = v.rotateRight n ∧
    (let x := (BitVec.cons (getFlag .CF f) v).rotateLeft n;
      (shiftSteps .rcl n (v, f)).1 = x.setWidth w ∧ getFlag .CF (shiftSteps .rcl n (v, f)).2 = x.msb) ∧
    (let x := (BitVec.cons (getFlag .CF f) v).rotateRight n;
      (shiftSteps .rcr n (v, f)).1 = x.setWidth w ∧ getFlag .CF (shiftSteps .rcr n (v, f)).2 = x.msb) ∧
    (shiftSteps .rcl (w + 1) (v, f)).1 = v ∧ getFlag .CF (shiftSteps .rcl (w + 1) (v, f)).2 = getFlag .CF f ∧
    (shiftSteps .rcr (w + 1) (v, f)).1 = v ∧ getFlag .CF (shiftSteps .rcr (w + 1) (v, f)).2 = getFlag .CF f ∧
    (1 ≤ n → getFlag .CF (shiftSteps .shl n (v, f)).2 = (decide (n ≤ w) && v.getLsbD (w - n))) ∧
    (1 ≤ n → getFlag .CF (shiftSteps .shr n (v, f)).2 = v.getLsbD (n - 1)) ∧
    (1 ≤ n → getFlag .CF (shiftSteps .sar n (v, f)).2 = (if n ≤ w then v.getLsbD (n - 1) else v.msb)) ∧
    (1 ≤ n → getFlag .CF (shiftSteps .rol n (v, f)).2 = (v.rotateLeft n).getLsbD 0) ∧
    (1 ≤ n → getFlag .CF (shiftSteps .ror n (v, f)).2 = (v.rotateRight n).msb) ∧
    (∀ op, 1 ≤ n → getFlag .OF (shiftSteps op n (v, f)).2 =
      if op.isLeft then getFlag .CF (shiftSteps op n (v, f)).2 ^^ (shiftSteps op n (v, f)).1.msb
      else (shiftSteps op n (v, f)).1.msb ^^ (shiftSteps op n (v, f)).1.getLsbD (w - 2))

/-! ### Arithmetic (42_arithmetic.md) -/

/-- ADD and ADC complete in every form, with the sum and the flags of `add_w` (42_arithmetic.md R304, R310, R311). -/
def Obligations.AddCompletes : Prop :=
  EGForms (addEffect false) (addEffect false) false .addEbGb .addEvGv .addAlIb .addAxIw .addEbIb .addEvIw ∧
  GEForms (addEffect false) (addEffect false) false .addGbEb .addGvEv .addEvSib ∧
  EGForms (addEffect true) (addEffect true) false .adcEbGb .adcEvGv .adcAlIb .adcAxIw .adcEbIb .adcEvIw ∧
  GEForms (addEffect true) (addEffect true) false .adcGbEb .adcGvEv .adcEvSib

/-- SUB, SBB and CMP complete in every form, with the flags of `sub_w`; CMP writes no operand (42_arithmetic.md R304, R312-R314). -/
def Obligations.SubtractCompletes : Prop :=
  EGForms (subEffect false) (subEffect false) false .subEbGb .subEvGv .subAlIb .subAxIw .subEbIb .subEvIw ∧
  GEForms (subEffect false) (subEffect false) false .subGbEb .subGvEv .subEvSib ∧
  EGForms (subEffect true) (subEffect true) false .sbbEbGb .sbbEvGv .sbbAlIb .sbbAxIw .sbbEbIb .sbbEvIw ∧
  GEForms (subEffect true) (subEffect true) false .sbbGbEb .sbbGvEv .sbbEvSib ∧
  EGForms (subEffect false) (subEffect false) true .cmpEbGb .cmpEvGv .cmpAlIb .cmpAxIw .cmpEbIb .cmpEvIw ∧
  GEForms (subEffect false) (subEffect false) true .cmpGbEb .cmpGvEv .cmpEvSib

/-- AND, OR, XOR and TEST complete in every form: CF and OF clear, SF, ZF, PF from the result, AF a draw; TEST writes no operand
(44_logic_shift.md R390-R394). -/
def Obligations.LogicCompletes : Prop :=
  EGForms (logicEffect (· &&& ·)) (logicEffect (· &&& ·)) false .andEbGb .andEvGv .andAlIb .andAxIw .andEbIb .andEvIw ∧
  GEForms (logicEffect (· &&& ·)) (logicEffect (· &&& ·)) false .andGbEb .andGvEv .andEvSib ∧
  EGForms (logicEffect (· ||| ·)) (logicEffect (· ||| ·)) false .orEbGb .orEvGv .orAlIb .orAxIw .orEbIb .orEvIw ∧
  GEForms (logicEffect (· ||| ·)) (logicEffect (· ||| ·)) false .orGbEb .orGvEv .orEvSib ∧
  EGForms (logicEffect (· ^^^ ·)) (logicEffect (· ^^^ ·)) false .xorEbGb .xorEvGv .xorAlIb .xorAxIw .xorEbIb .xorEvIw ∧
  GEForms (logicEffect (· ^^^ ·)) (logicEffect (· ^^^ ·)) false .xorGbEb .xorGvEv .xorEvSib ∧
  EGForms (logicEffect (· &&& ·)) (logicEffect (· &&& ·)) true .testEbGb .testEvGv .testAlIb .testAxIw .testEbIb .testEvIw

/-- INC, DEC, NEG and NOT complete: INC and DEC keep CF, NEG is 0 minus the operand, NOT writes no flag; the operand is read and written at
one place (42_arithmetic.md R315-R317; 44_logic_shift.md R395; 40_pipeline.md R211). -/
def Obligations.UnaryCompletes : Prop :=
  ∀ s : State, Quiet s →
    (∀ e, exec (.incEb e) s = .next (e.stored s (addResult (e.value s) 1 false)
      (((e.seen s).mapFlags (addFlags (e.value s) 1 false)).setFlag .CF (s.flag .CF)))) ∧
    (∀ e, exec (.incEv e) s = .next (e.stored s (addResult (e.value s) 1 false)
      (((e.seen s).mapFlags (addFlags (e.value s) 1 false)).setFlag .CF (s.flag .CF)))) ∧
    (∀ r, exec (.incR16 r) s = .next (((s.mapFlags (addFlags (s.reg r) 1 false)).setFlag .CF (s.flag .CF)).setReg r
      (addResult (s.reg r) 1 false))) ∧
    (∀ e, exec (.decEb e) s = .next (e.stored s (subResult (e.value s) 1 false)
      (((e.seen s).mapFlags (subFlags (e.value s) 1 false)).setFlag .CF (s.flag .CF)))) ∧
    (∀ e, exec (.decEv e) s = .next (e.stored s (subResult (e.value s) 1 false)
      (((e.seen s).mapFlags (subFlags (e.value s) 1 false)).setFlag .CF (s.flag .CF)))) ∧
    (∀ r, exec (.decR16 r) s = .next (((s.mapFlags (subFlags (s.reg r) 1 false)).setFlag .CF (s.flag .CF)).setReg r
      (subResult (s.reg r) 1 false))) ∧
    (∀ e, exec (.negEb e) s = .next (e.stored s (subResult 0 (e.value s) false)
      ((e.seen s).mapFlags (subFlags 0 (e.value s) false)))) ∧
    (∀ e, exec (.negEv e) s = .next (e.stored s (subResult 0 (e.value s) false)
      ((e.seen s).mapFlags (subFlags 0 (e.value s) false)))) ∧
    (∀ e, exec (.notEb e) s = .next (e.stored s (e.value s ^^^ 0xFF) (e.seen s))) ∧
    (∀ e, exec (.notEv e) s = .next (e.stored s (e.value s ^^^ 0xFFFF) (e.seen s)))

/-- MUL and IMUL complete: the exact product goes to AX or DX:AX; CF and OF say that it does not fit the low half, unsigned or signed; SF,
ZF, PF and AF are draws (42_arithmetic.md R320, R321). -/
def Obligations.MultiplyCompletes : Prop :=
  ∀ s : State, Quiet s →
    (∀ e : Rm8, exec (.mulEb e) s = .next (
      let p := (s.reg8 .al).toNat * (e.value s).toNat
      ((((e.seen s).setReg .ax (BitVec.ofNat 16 p)).setFlag .CF (decide (0x100 ≤ p))).setFlag .OF
        (decide (0x100 ≤ p))).freeFlags [.SF, .ZF, .PF, .AF])) ∧
    (∀ e : Rm16, exec (.mulEv e) s = .next (
      let p := (s.reg .ax).toNat * (e.value s).toNat
      (((((e.seen s).setReg .dx (BitVec.ofNat 16 (p / 0x10000))).setReg .ax (BitVec.ofNat 16 p)).setFlag .CF
        (decide (0x10000 ≤ p))).setFlag .OF (decide (0x10000 ≤ p))).freeFlags [.SF, .ZF, .PF, .AF])) ∧
    (∀ e : Rm8, exec (.imulEb e) s = .next (
      let p := (s.reg8 .al).toInt * (e.value s).toInt
      let wide := decide (p < -0x80 ∨ 0x7F < p)
      ((((e.seen s).setReg .ax (BitVec.ofInt 16 p)).setFlag .CF wide).setFlag .OF wide).freeFlags [.SF, .ZF, .PF, .AF])) ∧
    (∀ e : Rm16, exec (.imulEv e) s = .next (
      let p := (s.reg .ax).toInt * (e.value s).toInt
      let wide := decide (p < -0x8000 ∨ 0x7FFF < p)
      (((((e.seen s).setReg .dx (BitVec.ofInt 16 (p / 0x10000))).setReg .ax (BitVec.ofInt 16 p)).setFlag .CF wide).setFlag .OF
        wide).freeFlags [.SF, .ZF, .PF, .AF]))

/-- DIV completes when the divisor is not 0 and the quotient fits: quotient and remainder, the six status flags clear
(42_arithmetic.md R322). -/
def Obligations.UnsignedDivideCompletes : Prop :=
  ∀ s : State, Quiet s →
    (∀ e : Rm8, (e.value s).toNat ≠ 0 → (s.reg .ax).toNat / (e.value s).toNat ≤ 0xFF →
      exec (.divEb e) s = .next ((((e.seen s).setReg8 .al (BitVec.ofNat 8 ((s.reg .ax).toNat / (e.value s).toNat))).setReg8 .ah
        (BitVec.ofNat 8 ((s.reg .ax).toNat % (e.value s).toNat))).mapFlags clearStatus)) ∧
    (∀ e : Rm16, (e.value s).toNat ≠ 0 →
      ((s.reg .dx).toNat * 0x10000 + (s.reg .ax).toNat) / (e.value s).toNat ≤ 0xFFFF →
      exec (.divEv e) s = .next ((((e.seen s).setReg .ax
        (BitVec.ofNat 16 (((s.reg .dx).toNat * 0x10000 + (s.reg .ax).toNat) / (e.value s).toNat))).setReg .dx
        (BitVec.ofNat 16 (((s.reg .dx).toNat * 0x10000 + (s.reg .ax).toNat) % (e.value s).toNat))).mapFlags clearStatus)) ∧
    (∀ f v, getFlag f (clearStatus v) = if f ∈ statusFlags then false else getFlag f v)

/-- IDIV completes when the divisor is not 0 and the quotient, rounded toward zero, lies in the symmetric range. The quotient is negated
after a repeat byte that is the last prefix; a draw decides when another prefix came after it (42_arithmetic.md R323, R326). -/
def Obligations.SignedDivideCompletes : Prop :=
  ∀ s : State, Quiet s →
    (∀ e : Rm8, let n := (s.reg .ax).toInt
      let d := (e.value s).toInt
      d ≠ 0 → -127 ≤ n.tdiv d → n.tdiv d ≤ 127 →
      let done := fun (q : Int) (t : State) => Host.Outcome.next (φ := Fault) (ρ := Refusal)
        (((t.setReg8 .al (BitVec.ofInt 8 q)).setReg8 .ah (BitVec.ofInt 8 (n - n.tdiv d * d))).mapFlags clearStatus)
      (s.rep = false → exec (.idivEb e) s = done (n.tdiv d) (e.seen s)) ∧
      (s.rep = true → s.lastPrefixRep = true → exec (.idivEb e) s = done (-(n.tdiv d)) (e.seen s)) ∧
      (s.rep = true → s.lastPrefixRep = false →
        exec (.idivEb e) s = done (if Config.freeBit s.draws then -(n.tdiv d) else n.tdiv d) (e.seen s).drawn)) ∧
    (∀ e : Rm16, let n := (dxAx s).toInt
      let d := (e.value s).toInt
      d ≠ 0 → -32767 ≤ n.tdiv d → n.tdiv d ≤ 32767 →
      let done := fun (q : Int) (t : State) => Host.Outcome.next (φ := Fault) (ρ := Refusal)
        (((t.setReg .ax (BitVec.ofInt 16 q)).setReg .dx (BitVec.ofInt 16 (n - n.tdiv d * d))).mapFlags clearStatus)
      (s.rep = false → exec (.idivEv e) s = done (n.tdiv d) (e.seen s)) ∧
      (s.rep = true → s.lastPrefixRep = true → exec (.idivEv e) s = done (-(n.tdiv d)) (e.seen s)) ∧
      (s.rep = true → s.lastPrefixRep = false →
        exec (.idivEv e) s = done (if Config.freeBit s.draws then -(n.tdiv d) else n.tdiv d) (e.seen s).drawn))

/-- DIV and IDIV with a divisor of 0 or a quotient out of range, and AAM with base 0, make the six status flags draws and raise vector 0:
the frame is pushed, CS:IP loaded and the host called, whatever it does there; no result is written. With a host that is quiet there too the
instruction ends in the dispatched state (42_arithmetic.md R322, R323, R325; 43_bcd.md R364; 60_exceptions.md R580). -/
def Obligations.DivideFaultTraps : Prop :=
  ∀ s : State, Quiet s →
    let drawn := fun (t : State) => t.freeFlags [.CF, .PF, .AF, .ZF, .SF, .OF]
    let traps := fun (i : Instr) (t : State) =>
      exec i s = thenDo (callHost (.interrupt 0) ((drawn t).presented 0)) (fun u => .next (u.setRunState .idle)) ∧
      (QuietAtInterrupt s → exec i s = .next ((drawn t).dispatched 0))
    (∀ e : Rm8, (e.value s).toNat = 0 ∨ 0xFF < (s.reg .ax).toNat / (e.value s).toNat → traps (.divEb e) (e.seen s)) ∧
    (∀ e : Rm16, (e.value s).toNat = 0 ∨ 0xFFFF < (dxAx s).toNat / (e.value s).toNat → traps (.divEv e) (e.seen s)) ∧
    (∀ e : Rm8, (e.value s).toInt = 0 ∨ (s.reg .ax).toInt.tdiv (e.value s).toInt < -127 ∨
      127 < (s.reg .ax).toInt.tdiv (e.value s).toInt → traps (.idivEb e) (e.seen s)) ∧
    (∀ e : Rm16, (e.value s).toInt = 0 ∨ (dxAx s).toInt.tdiv (e.value s).toInt < -32767 ∨
      32767 < (dxAx s).toInt.tdiv (e.value s).toInt → traps (.idivEv e) (e.seen s)) ∧
    traps (.aam 0) s ∧
    (∀ k, (drawn s).reg k = s.reg k)

/-! ### BCD (43_bcd.md) -/

/-- AAA and AAS complete: where the low digit is above 9 or AF is set, AL moves by 6 and AH by 1 on their own and AF and CF are set; else AF
and CF are clear; AL keeps its low digit; OF, SF, ZF, PF are draws (43_bcd.md R360, R361). -/
def Obligations.AsciiAdjustCompletes : Prop :=
  ∀ s : State, let al := s.reg8 .al
    let ah := s.reg8 .ah
    let done := fun (al ah : Byte) (c : Bool) => Host.Outcome.next (φ := Fault) (ρ := Refusal)
      (((((s.setReg8 .ah ah).setFlag .AF c).setFlag .CF c).setReg8 .al (al &&& 0x0F)).freeFlags [.OF, .SF, .ZF, .PF])
    (9 < (al &&& 0x0F).toNat ∨ s.flag .AF = true →
      exec .aaa s = done (al + 6) (ah + 1) true ∧ exec .aas s = done (al - 6) (ah - 1) true) ∧
    (¬(9 < (al &&& 0x0F).toNat ∨ s.flag .AF = true) → exec .aaa s = done al ah false ∧ exec .aas s = done al ah false)

/-- DAA and DAS complete: the low correction by 6 and the high one by 0x60 are both decided on the old AL, AF and CF; AF and CF say which
were applied; SF, ZF, PF come from the final AL; OF is a draw; in the band AF=1, CF=0, AL in 0x9A..0x9F a draw decides the high correction
(43_bcd.md R362, R363). -/
def Obligations.DecimalAdjustCompletes : Prop :=
  ∀ s : State, let al := s.reg8 .al
    let af := s.flag .AF
    let cf := s.flag .CF
    let low := decide (9 < (al &&& 0x0F).toNat ∨ af = true)
    let six : Byte := if low then 0x06 else 0
    let done := fun (t : State) (high : Bool) (al : Byte) => Host.Outcome.next (φ := Fault) (ρ := Refusal)
      (((((t.setReg8 .al al).setFlag .AF low).setFlag .CF high).mapFlags (putSZP al)).freeFlags [.OF])
    let high := decide (0x99 < al.toNat ∨ cf = true)
    let draw := Config.freeBit s.draws
    (¬(af = true ∧ cf = false ∧ 0x9A ≤ al.toNat ∧ al.toNat ≤ 0x9F) →
      exec .daa s = done s high (al + six + (if high then 0x60 else 0)) ∧
      exec .das s = done s high (al - six - (if high then 0x60 else 0))) ∧
    (af = true ∧ cf = false ∧ 0x9A ≤ al.toNat ∧ al.toNat ≤ 0x9F →
      exec .daa s = done s.drawn draw (al + six + (if draw then 0x60 else 0)) ∧
      exec .das s = done s.drawn draw (al - six - (if draw then 0x60 else 0)))

/-- AAM with a base that is not 0 divides AL by it; AAD multiplies AH by its base and adds AL; SF, ZF, PF from AL; OF, AF, CF are draws
(43_bcd.md R364, R365). -/
def Obligations.BaseAdjustCompletes : Prop :=
  ∀ (s : State) (base : Byte),
    (base ≠ 0 → exec (.aam base) s = .next ((((s.setReg8 .ah (BitVec.ofNat 8 ((s.reg8 .al).toNat / base.toNat))).setReg8 .al
      (BitVec.ofNat 8 ((s.reg8 .al).toNat % base.toNat))).mapFlags
        (putSZP (BitVec.ofNat 8 ((s.reg8 .al).toNat % base.toNat)))).freeFlags [.OF, .AF, .CF])) ∧
    exec (.aad base) s = .next ((((s.setReg8 .al
      (BitVec.ofNat 8 ((s.reg8 .al).toNat + (s.reg8 .ah).toNat * base.toNat))).setReg8 .ah 0).mapFlags
        (putSZP (BitVec.ofNat 8 ((s.reg8 .al).toNat + (s.reg8 .ah).toNat * base.toNat)))).freeFlags [.OF, .AF, .CF])

/-! ### Shifts and rotates (44_logic_shift.md) -/

/-- The seven shifts and rotates complete in their four forms, with the count 1 or all of CL; a count of 0 changes no flag and writes the
operand back; a shift also writes SF, ZF, PF and leaves AF a draw (44_logic_shift.md R400-R407). -/
def Obligations.ShiftsComplete : Prop :=
  ShiftForms .rol .rolEb1 .rolEbCl .rolEv1 .rolEvCl ∧ ShiftForms .ror .rorEb1 .rorEbCl .rorEv1 .rorEvCl ∧
  ShiftForms .rcl .rclEb1 .rclEbCl .rclEv1 .rclEvCl ∧ ShiftForms .rcr .rcrEb1 .rcrEbCl .rcrEv1 .rcrEvCl ∧
  ShiftForms .shl .shlEb1 .shlEbCl .shlEv1 .shlEvCl ∧ ShiftForms .shr .shrEb1 .shrEbCl .shrEv1 .shrEvCl ∧
  ShiftForms .sar .sarEb1 .sarEbCl .sarEv1 .sarEvCl ∧
  (∀ (w : Nat) (op : ShiftOp) (n : Nat) (v : BitVec w) (s : State),
    shiftValue op 0 v s = (v, s) ∧
    (n ≠ 0 → op ∈ [ShiftOp.rol, .ror, .rcl, .rcr] →
      shiftValue op n v s = ((shiftSteps op n (v, s.flags)).1, s.mapFlags fun f => (shiftSteps op n (v, f)).2)) ∧
    (n ≠ 0 → op ∈ [ShiftOp.shl, .shr, .sar] →
      shiftValue op n v s = ((shiftSteps op n (v, s.flags)).1,
        (s.mapFlags fun f => putSZP (shiftSteps op n (v, f)).1 (shiftSteps op n (v, f)).2).freeFlag .AF)))

/-! ### Data transfer (41_data_transfer.md) -/

/-- Every MOV completes: the destination gets the source's value and nothing else changes (41_data_transfer.md R241-R246). -/
def Obligations.MovesComplete : Prop :=
  ∀ s : State, Quiet s →
    (∀ e g, exec (.movEbGb e g) s = .next (e.stored s (s.reg8 g) s)) ∧
    (∀ e g, exec (.movEvGv e g) s = .next (e.stored s (s.reg g) s)) ∧
    (∀ g e, exec (.movGbEb g e) s = .next ((e.seen s).setReg8 g (e.value s))) ∧
    (∀ g e, exec (.movGvEv g e) s = .next ((e.seen s).setReg g (e.value s))) ∧
    (∀ e imm, exec (.movEbIb e imm) s = .next (e.stored s imm s)) ∧
    (∀ e imm, exec (.movEvIw e imm) s = .next (e.stored s imm s)) ∧
    (∀ r imm, exec (.movR8Ib r imm) s = .next (s.setReg8 r imm)) ∧
    (∀ r imm, exec (.movR16Iw r imm) s = .next (s.setReg r imm)) ∧
    (∀ off, exec (.movAlOb off) s = .next ((s.checked .read (lin (segOr .ds s) off)).setReg8 .al (s.byteAt (segOr .ds s) off))) ∧
    (∀ off, exec (.movAxOv off) s = .next ((s.checkedWord .read (segOr .ds s) off).setReg .ax (s.wordAt (segOr .ds s) off))) ∧
    (∀ off, exec (.movObAl off) s = .next (s.storeByte (segOr .ds s) off (s.reg8 .al))) ∧
    (∀ off, exec (.movOvAx off) s = .next (s.storeWord (segOr .ds s) off (s.reg .ax))) ∧
    (∀ e r, exec (.movEwSw e r) s = .next (e.stored s (s.sreg r) s)) ∧
    (∀ e, exec (.movEsEw e) s = .next ((e.seen s).setSReg .es (e.value s))) ∧
    (∀ e, exec (.movSsEw e) s = .next ((e.seen s).setSReg .ss (e.value s))) ∧
    (∀ e, exec (.movDsEw e) s = .next ((e.seen s).setSReg .ds (e.value s)))

/-- The place an operand E names: a register, or the segment value (the pending override, else SS when BP participates, else DS) and the
sum of base, index and displacement at 16 bits, whatever the override. By log entry 14, the model's form, an operand is at the pair kept in
`ea` where the decoder of the step has resolved one, and otherwise at the pair as it resolves now (30_encoding.md R142-R145). -/
def Obligations.EffectiveAddress : Prop :=
  ∀ (s : State) (d : Word) (d8 : Byte),
    (∀ r, locate8 (.reg r) s = .reg r) ∧ (∀ r, locate16 (.reg r) s = .reg r) ∧
    (∀ m, s.ea = none → locate8 (.mem m) s = .mem (resolve m s).1 (resolve m s).2 ∧
      locate16 (.mem m) s = .mem (resolve m s).1 (resolve m s).2) ∧
    (∀ m seg off, s.ea = some (seg, off) → locate8 (.mem m) s = .mem seg off ∧ locate16 (.mem m) s = .mem seg off) ∧
    (∀ m r, s.segOverride = some r → (resolve m s).1 = s.sreg r) ∧
    ((resolve (.direct d) s).2 = d ∧
      (resolve (.base .bxSi) s).2 = s.reg .bx + s.reg .si ∧ (resolve (.base .bxDi) s).2 = s.reg .bx + s.reg .di ∧
      (resolve (.base .bpSi) s).2 = s.reg .bp + s.reg .si ∧ (resolve (.base .bpDi) s).2 = s.reg .bp + s.reg .di ∧
      (resolve (.base .si) s).2 = s.reg .si ∧ (resolve (.base .di) s).2 = s.reg .di ∧
      (resolve (.base .bp) s).2 = s.reg .bp ∧ (resolve (.base .bx) s).2 = s.reg .bx) ∧
    (s.segOverride = none →
      resolve (.direct d) s = (s.sreg .ds, d) ∧
      resolve (.base .bxSi) s = (s.sreg .ds, s.reg .bx + s.reg .si) ∧
      resolve (.base .bxDi) s = (s.sreg .ds, s.reg .bx + s.reg .di) ∧
      resolve (.base .bpSi) s = (s.sreg .ss, s.reg .bp + s.reg .si) ∧
      resolve (.base .bpDi) s = (s.sreg .ss, s.reg .bp + s.reg .di) ∧
      resolve (.base .si) s = (s.sreg .ds, s.reg .si) ∧
      resolve (.base .di) s = (s.sreg .ds, s.reg .di) ∧
      resolve (.base .bx) s = (s.sreg .ds, s.reg .bx) ∧
      resolve (.disp8 .bp d8) s = (s.sreg .ss, s.reg .bp + d8.signExtend 16) ∧
      resolve (.disp16 .bp d) s = (s.sreg .ss, s.reg .bp + d)) ∧
    (∀ b, resolve (.disp8 b d8) s = ((resolve (.base b) s).1, (resolve (.base b) s).2 + d8.signExtend 16)) ∧
    (∀ b, resolve (.disp16 b d) s = ((resolve (.base b) s).1, (resolve (.base b) s).2 + d))

/-- Every push completes: the word goes to the stack as `Push16` puts it; PUSH SP pushes the decremented SP, and through the mod/reg/rm form
a draw chooses the old or the decremented one (41_data_transfer.md R252-R254, R258). -/
def Obligations.PushesComplete : Prop :=
  ∀ s : State, Quiet s →
    (∀ r, r ≠ .sp → exec (.pushR16 r) s = .next (s.pushed (s.reg r))) ∧
    exec (.pushR16 .sp) s = .next (s.pushed (s.reg .sp - 2)) ∧
    exec .pushEs s = .next (s.pushed (s.sreg .es)) ∧ exec .pushCs s = .next (s.pushed (s.sreg .cs)) ∧
    exec .pushSs s = .next (s.pushed (s.sreg .ss)) ∧ exec .pushDs s = .next (s.pushed (s.sreg .ds)) ∧
    (∀ e, e ≠ .reg .sp → exec (.pushEv e) s = .next ((e.seen s).pushed (e.value s))) ∧
    exec (.pushEv (.reg .sp)) s =
      .next (s.drawn.pushed (if Config.freeBit s.draws then s.reg .sp else s.reg .sp - 2)) ∧
    exec .pushf s = .next (s.pushed s.flags)

/-- `Push16` moves SP down by 2, wrapping, and stores the word at SS:SP; it changes no other register and no other byte; `Pop16` reads the
word back and moves SP up again (41_data_transfer.md R250, R251). -/
def Obligations.PushAndPopAreInverse : Prop :=
  ∀ (s : State) (v : Word), Quiet s → Memory.wf s.mem = true →
    ∃ t, push16 v s = .next t ∧ t.reg .sp = s.reg .sp - 2 ∧ (∀ k, k ≠ .sp → t.reg k = s.reg k) ∧
      t.sregs = s.sregs ∧ t.ip = s.ip ∧ t.flags = s.flags ∧ t.perm = s.perm ∧
      t.wordAt (s.sreg .ss) (s.reg .sp - 2) = v ∧
      (∀ a, a ∉ wordAddrs (s.sreg .ss) (s.reg .sp - 2) → t.peek a = s.peek a) ∧
      ∃ u, pop16 t = .next (v, u) ∧ u.regs = s.regs ∧ u.mem = t.mem

/-- Every pop completes: the word at SS:SP goes to the destination, whose address was resolved before the pop; POP SP leaves the popped
word; POPF masks (41_data_transfer.md R255-R257, R259). -/
def Obligations.PopsComplete : Prop :=
  ∀ s : State, Quiet s →
    (∀ r, exec (.popR16 r) s = .next (s.popped.setReg r s.top)) ∧
    exec .popEs s = .next (s.popped.setSReg .es s.top) ∧ exec .popSs s = .next (s.popped.setSReg .ss s.top) ∧
    exec .popDs s = .next (s.popped.setSReg .ds s.top) ∧
    (∀ e, exec (.popEv e) s = .next (e.stored s s.top s.popped)) ∧
    exec .popf s = .next (s.popped.setFlags16 s.top)

/-- XCHG, NOP, XLAT, LEA, LDS and LES complete (41_data_transfer.md R260-R268). -/
def Obligations.ExchangesAndAddressLoadsComplete : Prop :=
  ∀ s : State, Quiet s →
    (∀ e g, exec (.xchgEbGb e g) s = .next ((e.stored s (s.reg8 g) (e.seen s)).setReg8 g (e.value s))) ∧
    (∀ e g, exec (.xchgEvGv e g) s = .next ((e.stored s (s.reg g) (e.seen s)).setReg g (e.value s))) ∧
    (∀ r, exec (.xchgAxR16 r) s = .next ((s.setReg .ax (s.reg r)).setReg r (s.reg .ax))) ∧
    exec .nop s = .next s ∧
    exec .xlat s = .next ((s.checked .read (lin (segOr .ds s) (s.reg .bx + (s.reg8 .al).setWidth 16))).setReg8 .al
      (s.byteAt (segOr .ds s) (s.reg .bx + (s.reg8 .al).setWidth 16))) ∧
    (∀ g m, exec (.leaGvM g m) s = .next (s.setReg g (memAddr m s).2)) ∧
    (∀ g m, exec (.ldsGvMp g m) s = .next (((m.farSeen s).setReg g (m.farOffset s)).setSReg .ds (m.farSegment s))) ∧
    (∀ g m, exec (.lesGvMp g m) s = .next (((m.farSeen s).setReg g (m.farOffset s)).setSReg .es (m.farSegment s)))

/-- LAHF, SAHF, CBW and CWD complete, for every host: they call none. SAHF writes SF, ZF, AF, PF, CF from AH and no other flag
(41_data_transfer.md R270, R271, R275, R276). -/
def Obligations.FlagTransfersAndConversionsComplete : Prop :=
  ∀ s : State,
    exec .lahf s = .next (s.setReg8 .ah (s.flags.setWidth 8)) ∧
    exec .sahf s = .next (s.setFlags16 ((s.flags &&& 0xFF00) ||| (s.reg8 .ah).setWidth 16)) ∧
    (∀ f, getFlag f (maskFlags ((s.flags &&& 0xFF00) ||| (s.reg8 .ah).setWidth 16)) =
      if f ∈ [Flag.SF, .ZF, .AF, .PF, .CF] then (s.reg8 .ah).getLsbD f.bit else s.flag f) ∧
    exec .cbw s = .next (s.setReg .ax ((s.reg8 .al).signExtend 16)) ∧
    exec .cwd s = .next (s.setReg .dx (if (s.reg .ax).getLsbD 15 then 0xFFFF else 0x0000))

/-- IN and OUT complete, each with one call of the host: the answer goes to AL or AX, a free value where the host's script gives none; the
port is the immediate, zero-extended, or DX (41_data_transfer.md R280, R281; 20_memory.md R100; a host that does no more in a port read than
answer is the premise `Quiet`, log entry 31). -/
def Obligations.PortsComplete : Prop :=
  ∀ s : State, Quiet s →
    let answer := fun (c : HostCall) => match s.host.head?.bind HostReply.answer with
      | some v => (v, s.told c)
      | none => (Config.freeWord s.draws, (s.told c).drawn)
    (∀ p, exec (.inAlIb p) s = .next (let a := answer (.portRead8 (p.setWidth 16)); a.2.setReg8 .al (a.1.setWidth 8))) ∧
    (∀ p, exec (.inAxIb p) s = .next (let a := answer (.portRead16 (p.setWidth 16)); a.2.setReg .ax a.1)) ∧
    exec .inAlDx s = .next (let a := answer (.portRead8 (s.reg .dx)); a.2.setReg8 .al (a.1.setWidth 8)) ∧
    exec .inAxDx s = .next (let a := answer (.portRead16 (s.reg .dx)); a.2.setReg .ax a.1) ∧
    (∀ p, exec (.outIbAl p) s = .next (s.told (.portWrite8 (p.setWidth 16) (s.reg8 .al)))) ∧
    (∀ p, exec (.outIbAx p) s = .next (s.told (.portWrite16 (p.setWidth 16) (s.reg .ax)))) ∧
    exec .outDxAl s = .next (s.told (.portWrite8 (s.reg .dx) (s.reg8 .al))) ∧
    exec .outDxAx s = .next (s.told (.portWrite16 (s.reg .dx) (s.reg .ax)))

/-! ### Strings (45_string.md) -/

/-- A string instruction without a repeat prefix runs its body once (45_string.md R430-R432, R440-R444). -/
def Obligations.StringsRunOnce : Prop :=
  ∀ s : State, Quiet s → s.rep = false →
    exec .movsb s = .next (moved8 s) ∧ exec .movsw s = .next (moved16 s) ∧
    exec .cmpsb s = .next (compared8 s) ∧ exec .cmpsw s = .next (compared16 s) ∧
    exec .scasb s = .next (scanned8 s) ∧ exec .scasw s = .next (scanned16 s) ∧
    exec .lodsb s = .next (loaded8 s) ∧ exec .lodsw s = .next (loaded16 s) ∧
    exec .stosb s = .next (filled8 s) ∧ exec .stosw s = .next (filled16 s)

/-- A repeated MOVS, LODS or STOS runs CX rounds, whatever ZF is, and ends with CX = 0; with CX = 0 it changes nothing
(45_string.md R432, R433). -/
def Obligations.RepeatedTransfersRunCxRounds : Prop :=
  ∀ s : State, Quiet s → s.rep = true →
    let n := (s.reg .cx).toNat
    exec .movsb s = .next (rounds moved8 n s) ∧ exec .movsw s = .next (rounds moved16 n s) ∧
    exec .lodsb s = .next (rounds loaded8 n s) ∧ exec .lodsw s = .next (rounds loaded16 n s) ∧
    exec .stosb s = .next (rounds filled8 n s) ∧ exec .stosw s = .next (rounds filled16 n s) ∧
    (∀ body ∈ [moved8, moved16, loaded8, loaded16, filled8, filled16], (rounds body n s).reg .cx = 0) ∧
    (rounds moved8 n s).reg .di = elementOffset s 1 n ∧ (rounds moved16 n s).reg .di = elementOffset s 2 n ∧
    (rounds filled8 n s).reg .di = elementOffset s 1 n ∧ (rounds filled16 n s).reg .di = elementOffset s 2 n

/-- A repeated CMPS or SCAS ends after CX rounds or right after the first round that leaves ZF different from `repeatWhile`; CX then counts
the rounds not run (45_string.md R432, R433). -/
def Obligations.RepeatedComparisonsStopOnZf : Prop :=
  ∀ (s : State) (i : Instr) (body : State → State), Quiet s → s.rep = true →
    (i, body) = (.cmpsb, compared8) ∨ (i, body) = (.cmpsw, compared16) ∨ (i, body) = (.scasb, scanned8) ∨
      (i, body) = (.scasw, scanned16) →
    ∃ k ≤ (s.reg .cx).toNat, exec i s = .next (rounds body k s) ∧
      (rounds body k s).reg .cx = s.reg .cx - BitVec.ofNat 16 k ∧
      (∀ j, 1 ≤ j → j < k → goesOn (rounds body j s)) ∧
      (k = (s.reg .cx).toNat ∨ (1 ≤ k ∧ ¬ goesOn (rounds body k s)))

/-- REP STOSB fills CX bytes at ES:DI with AL, in the direction of DF, wrapping in the segment, and no other byte changes; the flags stay
(45_string.md R431-R433, R444). -/
def Obligations.RepStosbFillsMemory : Prop :=
  ∀ s : State, Quiet s → Memory.wf s.mem = true → s.rep = true →
    ∃ t, exec .stosb s = .next t ∧
      (∀ k < (s.reg .cx).toNat, t.byteAt (s.sreg .es) (elementOffset s 1 k) = s.reg8 .al) ∧
      (∀ a, (∀ k < (s.reg .cx).toNat, a ≠ lin (s.sreg .es) (elementOffset s 1 k)) → t.peek a = s.peek a) ∧
      t.reg .cx = 0 ∧ t.reg .di = elementOffset s 1 (s.reg .cx).toNat ∧ t.flags = s.flags

/-! ### Control transfer (46_control.md) -/

/-- The conditional jumps and JCXZ complete for every host: IP goes to the next instruction's offset plus the sign-extended displacement
when the condition holds, and nothing else changes (46_control.md R470-R487, R508). -/
def Obligations.ConditionalJumpsComplete : Prop :=
  ∀ (s : State) (rel : Byte),
    let jump := fun (c : Bool) => Host.Outcome.next (φ := Fault) (ρ := Refusal)
      (if c then s.setIp (s.ip + rel.signExtend 16) else s)
    exec (.jo rel) s = jump (s.flag .OF) ∧ exec (.jno rel) s = jump (!s.flag .OF) ∧
    exec (.jb rel) s = jump (s.flag .CF) ∧ exec (.jnb rel) s = jump (!s.flag .CF) ∧
    exec (.je rel) s = jump (s.flag .ZF) ∧ exec (.jne rel) s = jump (!s.flag .ZF) ∧
    exec (.jbe rel) s = jump (s.flag .CF || s.flag .ZF) ∧ exec (.ja rel) s = jump (!(s.flag .CF || s.flag .ZF)) ∧
    exec (.js rel) s = jump (s.flag .SF) ∧ exec (.jns rel) s = jump (!s.flag .SF) ∧
    exec (.jp rel) s = jump (s.flag .PF) ∧ exec (.jnp rel) s = jump (!s.flag .PF) ∧
    exec (.jl rel) s = jump (s.flag .SF != s.flag .OF) ∧ exec (.jge rel) s = jump (!(s.flag .SF != s.flag .OF)) ∧
    exec (.jle rel) s = jump (s.flag .ZF || s.flag .SF != s.flag .OF) ∧
    exec (.jg rel) s = jump (!(s.flag .ZF || s.flag .SF != s.flag .OF)) ∧
    exec (.jcxz rel) s = jump (s.reg .cx == 0)

/-- The unconditional jumps complete (46_control.md R490-R494). -/
def Obligations.JumpsComplete : Prop :=
  ∀ s : State, Quiet s →
    (∀ rel, exec (.jmpRel8 rel) s = .next (s.setIp (s.ip + rel.signExtend 16))) ∧
    (∀ rel, exec (.jmpRel16 rel) s = .next (s.setIp (s.ip + rel))) ∧
    (∀ off sg, exec (.jmpAp off sg) s = .next ((s.setIp off).setSReg .cs sg)) ∧
    (∀ e, exec (.jmpEv e) s = .next ((e.seen s).setIp (e.value s))) ∧
    (∀ m, exec (.jmpMp m) s = .next (((m.farSeen s).setIp (m.farOffset s)).setSReg .cs (m.farSegment s)))

/-- The calls complete: a near call pushes IP, a far call CS and then IP; the target is read before the push (46_control.md R495-R498). -/
def Obligations.CallsComplete : Prop :=
  ∀ s : State, Quiet s →
    (∀ rel, exec (.callRel16 rel) s = .next ((s.pushed s.ip).setIp (s.ip + rel))) ∧
    (∀ off sg, exec (.callAp off sg) s = .next ((((s.pushed (s.sreg .cs)).pushed s.ip).setSReg .cs sg).setIp off)) ∧
    (∀ e, exec (.callEv e) s = .next (((e.seen s).pushed s.ip).setIp (e.value s))) ∧
    (∀ m, exec (.callMp m) s = .next (((((m.farSeen s).pushed (s.sreg .cs)).pushed s.ip).setSReg .cs (m.farSegment s)).setIp
      (m.farOffset s)))

/-- The returns complete: RET pops IP, RETF pops IP and then CS, and the forms with an immediate then release that many bytes
(46_control.md R500-R503). -/
def Obligations.ReturnsComplete : Prop :=
  ∀ s : State, Quiet s →
    let near := s.popped.setIp s.top
    let far := near.popped.setSReg .cs near.top
    exec .ret s = .next near ∧
    (∀ n, exec (.retIw n) s = .next (near.setReg .sp (near.reg .sp + n))) ∧
    exec .retf s = .next far ∧
    (∀ n, exec (.retfIw n) s = .next (far.setReg .sp (far.reg .sp + n))) ∧
    near.reg .sp = s.reg .sp + 2 ∧ far.reg .sp = s.reg .sp + 4

/-- The loops complete for every host: CX goes down by 1, wrapping, even when the jump is not taken; the jump is taken while CX is not 0 and,
for LOOPE and LOOPNE, ZF is 1 or 0 (46_control.md R505-R507). -/
def Obligations.LoopsComplete : Prop :=
  ∀ (s : State) (rel : Byte),
    let down := s.setReg .cx (s.reg .cx - 1)
    let jump := fun (c : Bool) => Host.Outcome.next (φ := Fault) (ρ := Refusal)
      (if c then down.setIp (s.ip + rel.signExtend 16) else down)
    exec (.loop rel) s = jump (s.reg .cx != 1) ∧
    exec (.loope rel) s = jump (s.reg .cx != 1 && s.flag .ZF) ∧
    exec (.loopne rel) s = jump (s.reg .cx != 1 && !s.flag .ZF)

/-! ### Interrupts and processor control (47_system.md, 60_exceptions.md) -/

/-- INT n, INT3 and, with OF set, INTO raise vector n, 3 and 4: when the host is called, the old FLAGS, CS and IP are the three topmost
words of the stack, IP on top; TF and IF are clear and the other flags as they were; CS:IP comes from the vector's entry; no other
register and no byte outside the frame has changed. Then the host does what it does, and the instruction ends Idle; with a host that is quiet
there too it completes in that state. INTO with OF clear does nothing (47_system.md R520-R522; 60_exceptions.md R580-R582). -/
def Obligations.SoftwareInterruptsDispatch : Prop :=
  ∀ (s : State) (i : Instr) (n : Byte), Quiet s →
    (i = .intIb n ∨ (i = .int3 ∧ n = 3) ∨ (i = .into ∧ n = 4 ∧ s.flag .OF = true)) → Memory.wf s.mem = true →
    (∃ t, t = s.presented n ∧ t.reg .sp = s.reg .sp - 6 ∧ (∀ k, k ≠ .sp → t.reg k = s.reg k) ∧
      t.wordAt (s.sreg .ss) (s.reg .sp - 2) = s.flags ∧ t.wordAt (s.sreg .ss) (s.reg .sp - 4) = s.sreg .cs ∧
      t.wordAt (s.sreg .ss) (s.reg .sp - 6) = s.ip ∧ (∀ a, a ∉ pushAddrs s 3 → t.peek a = s.peek a) ∧
      t.flag .TF = false ∧ t.flag .IF = false ∧
      (∀ m, m ≠ Flag.TF.bit → m ≠ Flag.IF.bit → t.flags.getLsbD m = s.flags.getLsbD m) ∧
      t.ip = t.wordAt 0 (4 * n.setWidth 16) ∧ t.sreg .cs = t.wordAt 0 (4 * n.setWidth 16 + 2) ∧
      (∀ k, k ≠ .cs → t.sreg k = s.sreg k) ∧ t.runState = .interrupted ∧
      exec i s = thenDo (callHost (.interrupt n) t) (fun u => .next (u.setRunState .idle)) ∧
      (QuietAtInterrupt s → ∃ u, exec i s = .next u ∧ u = s.dispatched n ∧ u.regs = t.regs ∧ u.sregs = t.sregs ∧ u.ip = t.ip ∧
        u.flags = t.flags ∧ u.mem = t.mem ∧ u.calls = .interrupt n :: t.calls ∧ u.runState = .idle)) ∧
    (∀ u : State, u.flag .OF = false → exec .into u = .next u)

/-- IRET completes: it pops IP, CS and FLAGS in that order, FLAGS masked (47_system.md R523; 60_exceptions.md R585). -/
def Obligations.IretCompletes : Prop :=
  ∀ s : State, Quiet s →
    exec .iret s = .next (
      let t := s.popped.setIp s.top
      let u := t.popped.setSReg .cs t.top
      u.popped.setFlags16 u.top)

/-- An immediate IRET undoes an INT that the host leaves alone: it restores IP, CS and FLAGS, and SP has its value from before the interrupt (47_system.md R523;
60_exceptions.md R580, R585). -/
def Obligations.IretUndoesInterrupt : Prop :=
  ∀ (s t : State) (n : Byte), Quiet s → QuietAtInterrupt s → Memory.wf s.mem = true → maskFlags s.flags = s.flags → exec (.intIb n) s = .next t →
    ∃ u, exec .iret t = .next u ∧ u.ip = s.ip ∧ u.sregs = s.sregs ∧ u.flags = s.flags ∧ u.regs = s.regs

/-- HLT, the flag instructions, WAIT and ESC complete: HLT tells the host and is Halted; each flag instruction writes its one flag; WAIT and
ESC do nothing more (47_system.md R530, R535-R541, R545, R546; a host that does nothing at `halt` is the premise `Quiet`, log entry
31). -/
def Obligations.ProcessorControlCompletes : Prop :=
  ∀ s : State, (Quiet s → exec .hlt s = .next ((s.told .halt).setRunState .halted)) ∧
    (∃ t, exec .hlt s = .next t ∧ t.runState = .halted) ∧
    exec .clc s = .next (s.setFlag .CF false) ∧ exec .stc s = .next (s.setFlag .CF true) ∧
    exec .cmc s = .next (s.setFlag .CF (!s.flag .CF)) ∧ exec .cld s = .next (s.setFlag .DF false) ∧
    exec .std s = .next (s.setFlag .DF true) ∧ exec .cli s = .next (s.setFlag .IF false) ∧
    exec .sti s = .next (s.setFlag .IF true) ∧ exec .wait s = .next s ∧ (∀ n r e, exec (.esc n r e) s = .next s)

/-- The prefixes complete for every host: an override sets the pending override, 0xF2 and 0xF3 set `repeat` and `repeatWhile`, LOCK
changes nothing the manual names (40_pipeline.md R203, R204, R207; `lastPrefixRep` is the model's, log entry 10). -/
def Obligations.PrefixesComplete : Prop :=
  ∀ s : State,
    exec .segEs s = .next { s with segOverride := some .es, lastPrefixRep := false } ∧
    exec .segCs s = .next { s with segOverride := some .cs, lastPrefixRep := false } ∧
    exec .segSs s = .next { s with segOverride := some .ss, lastPrefixRep := false } ∧
    exec .segDs s = .next { s with segOverride := some .ds, lastPrefixRep := false } ∧
    exec .repne s = .next { s with rep := true, repeatWhile := false, lastPrefixRep := true } ∧
    exec .rep s = .next { s with rep := true, repeatWhile := true, lastPrefixRep := true } ∧
    exec .lock s = .next { s with lastPrefixRep := false }

/-- Every `(invalid)` row reports to the host, with the bytes of the step, and changes nothing else; no interrupt is raised; where the host
does not return the run ends there, with what it has done (40_pipeline.md R215, R231; 30_encoding.md R170; 60_exceptions.md R607). -/
def Obligations.InvalidOpcodesReport : Prop :=
  ∀ (s : State) (i : Instr),
    (i = .inv0F ∨ (∃ lo, i = .inv60 lo) ∨ i = .inv82 ∨ (∃ r e, i = .inv8C r e) ∨ (∃ g r, i = .inv8D g r) ∨
      (∃ e, i = .inv8Ecs e) ∨ (∃ r e, i = .inv8E r e) ∨ (∃ r e, i = .inv8F r e) ∨ i = .invC0 ∨ i = .invC1 ∨
      (∃ g r, i = .invC4 g r) ∨ (∃ g r, i = .invC5 g r) ∨ (∃ r e, i = .invC6 r e) ∨ (∃ r e, i = .invC7 r e) ∨
      i = .invC8 ∨ i = .invC9 ∨ (∃ e, i = .invD0r6 e) ∨ (∃ e, i = .invD1r6 e) ∨ (∃ e, i = .invD2r6 e) ∨
      (∃ e, i = .invD3r6 e) ∨ i = .invD6 ∨ i = .invF1 ∨ (∃ e, i = .invF6r1 e) ∨ (∃ e, i = .invF7r1 e) ∨
      (∃ r e, i = .invFE r e) ∨ (∃ r, i = .invFFr3 r) ∨ (∃ r, i = .invFFr5 r) ∨ (∃ e, i = .invFFr7 e)) →
    (Quiet s → exec i s = .next (s.told (.invalidOpcode s.stepBytes))) ∧
    (∀ r rest, s.host = r :: rest → r.returns = false →
      exec i s = thenDo (hostActs report r.acts (s.told (.invalidOpcode s.stepBytes))) fun t =>
        .fault (.hostStopped (.invalidOpcode s.stepBytes) t))

/-! ### Frames: what an instruction leaves alone, for every instruction

The host is quiet; for an instruction that raises an interrupt it is quiet at that call as well, since the default host may change anything
there (60_exceptions.md R609). -/

/-- Every general register, and every 8-bit half, is unchanged but for those `destsOf` names: the destination and the registers the rule says
the instruction also updates (SP of a stack instruction or a dispatch, SI, DI, CX of a string instruction, CX of a loop). -/
def Obligations.FrameOfRegisters : Prop :=
  ∀ (i : Instr) (s t : State), Quiet s → (raises i s = true → QuietAtInterrupt s) → exec i s = .next t →
    (∀ k : Reg16, (∀ d ∈ destsOf i s, d.wide ≠ k) → t.reg k = s.reg k) ∧
    (∀ k : Reg8, (∀ d ∈ destsOf i s, d ≠ .byte k ∧ d ≠ .word (wideReg k)) → t.reg8 k = s.reg8 k)

/-- Every flag is unchanged but for those `flagsOf` names, and the reserved bits are unchanged unless FLAGS is written as a whole
(10_state.md R40, R43, R44). -/
def Obligations.FrameOfFlags : Prop :=
  ∀ (i : Instr) (s t : State), Quiet s → (raises i s = true → QuietAtInterrupt s) → exec i s = .next t →
    (∀ f, f ∉ flagsOf i s → t.flag f = s.flag f) ∧
    (writesFlagsWhole i = false → ∀ n, (∀ f : Flag, f.bit ≠ n) → t.flags.getLsbD n = s.flags.getLsbD n)

/-- Every byte of memory is unchanged but for those at the addresses `storesOf` computes: the place of a memory destination, the stack slots
below SP, the elements of a string destination; no address at all for a form that stores nothing. No instruction changes a permission
(20_memory.md R85, R92). -/
def Obligations.FrameOfMemory : Prop :=
  ∀ (i : Instr) (s t : State), Quiet s → (raises i s = true → QuietAtInterrupt s) → exec i s = .next t →
    (∀ a, a ∉ storesOf i s → t.peek a = s.peek a) ∧ t.perm = s.perm

/-- CS, the other segment registers and IP are written only by the instructions `segsOf` and `mayJump` name; no instruction writes the
counter; the transient fields are the prefixes'; the run state changes by a dispatch or HLT (10_state.md R33, R36, R50-R52). The clauses
about the model's own fields rest on its choices, not on those rules: `ea` (log entry 14), `stepBytes` (13), `lastPrefixRep` (10),
`raised` (18), SINGLE_STEP and what the host does past its script as fields no instruction writes (8, 29), and the record of calls, the
host's script and the draws as only advancing (5, 3, 6). -/
def Obligations.FrameOfControl : Prop :=
  ∀ (i : Instr) (s t : State), Quiet s → (raises i s = true → QuietAtInterrupt s) → exec i s = .next t →
    (∀ k, k ∉ segsOf i s → t.sreg k = s.sreg k) ∧ (mayJump i s = false → t.ip = s.ip) ∧
    t.instructionCount = s.instructionCount ∧ t.singleStep = s.singleStep ∧ t.atInterrupt = s.atInterrupt ∧ t.ea = s.ea ∧ t.stepBytes = s.stepBytes ∧
    (isPrefix i = false → t.segOverride = s.segOverride ∧ t.rep = s.rep ∧ t.repeatWhile = s.repeatWhile ∧
      t.lastPrefixRep = s.lastPrefixRep) ∧
    (raises i s = false → t.raised = s.raised ∧ (i ≠ .hlt → t.runState = s.runState)) ∧
    (∃ new, t.calls = new ++ s.calls) ∧ (∃ used, s.host = used ++ t.host) ∧ s.draws ≤ t.draws
end

