-- ==== Sys2Proof/Laws/State.lean ====
section
/-! SUPPORT. What each update of the state leaves alone: one lemma for each field and each accessor of each update, so that no proof unfolds
a record update. -/

namespace Sys2Proof.Machine

variable (s : State)

/-! ### setReg -/

@[simp] theorem State.setReg_sregs (r : Reg16) (v : Word) : (s.setReg r v).sregs = s.sregs := rfl
@[simp] theorem State.setReg_ip (r : Reg16) (v : Word) : (s.setReg r v).ip = s.ip := rfl
@[simp] theorem State.setReg_flags (r : Reg16) (v : Word) : (s.setReg r v).flags = s.flags := rfl
@[simp] theorem State.setReg_segOverride (r : Reg16) (v : Word) : (s.setReg r v).segOverride = s.segOverride := rfl
@[simp] theorem State.setReg_rep (r : Reg16) (v : Word) : (s.setReg r v).rep = s.rep := rfl
@[simp] theorem State.setReg_repeatWhile (r : Reg16) (v : Word) : (s.setReg r v).repeatWhile = s.repeatWhile := rfl
@[simp] theorem State.setReg_lastPrefixRep (r : Reg16) (v : Word) : (s.setReg r v).lastPrefixRep = s.lastPrefixRep := rfl
@[simp] theorem State.setReg_ea (r : Reg16) (v : Word) : (s.setReg r v).ea = s.ea := rfl
@[simp] theorem State.setReg_raised (r : Reg16) (v : Word) : (s.setReg r v).raised = s.raised := rfl
@[simp] theorem State.setReg_stepBytes (r : Reg16) (v : Word) : (s.setReg r v).stepBytes = s.stepBytes := rfl
@[simp] theorem State.setReg_instructionCount (r : Reg16) (v : Word) : (s.setReg r v).instructionCount = s.instructionCount := rfl
@[simp] theorem State.setReg_runState (r : Reg16) (v : Word) : (s.setReg r v).runState = s.runState := rfl
@[simp] theorem State.setReg_mem (r : Reg16) (v : Word) : (s.setReg r v).mem = s.mem := rfl
@[simp] theorem State.setReg_perm (r : Reg16) (v : Word) : (s.setReg r v).perm = s.perm := rfl
@[simp] theorem State.setReg_singleStep (r : Reg16) (v : Word) : (s.setReg r v).singleStep = s.singleStep := rfl
@[simp] theorem State.setReg_host (r : Reg16) (v : Word) : (s.setReg r v).host = s.host := rfl
@[simp] theorem State.setReg_atInterrupt (r : Reg16) (v : Word) : (s.setReg r v).atInterrupt = s.atInterrupt := rfl
@[simp] theorem State.setReg_calls (r : Reg16) (v : Word) : (s.setReg r v).calls = s.calls := rfl
@[simp] theorem State.setReg_draws (r : Reg16) (v : Word) : (s.setReg r v).draws = s.draws := rfl
@[simp] theorem State.sreg_setReg (r : Reg16) (v : Word) (x : SReg) : (s.setReg r v).sreg x = s.sreg x := rfl
@[simp] theorem State.flag_setReg (r : Reg16) (v : Word) (x : Flag) : (s.setReg r v).flag x = s.flag x := rfl
@[simp] theorem State.flags16_setReg (r : Reg16) (v : Word) : (s.setReg r v).flags16 = s.flags16 := rfl
@[simp] theorem State.draw_setReg (r : Reg16) (v : Word) : (s.setReg r v).draw = s.draw := rfl
@[simp] theorem State.peek_setReg (r : Reg16) (v : Word) (x : Addr) : (s.setReg r v).peek x = s.peek x := rfl
@[simp] theorem State.byteAt_setReg (r : Reg16) (v : Word) (sg o : Word) : (s.setReg r v).byteAt sg o = s.byteAt sg o := rfl
@[simp] theorem State.wordAt_setReg (r : Reg16) (v : Word) (sg o : Word) : (s.setReg r v).wordAt sg o = s.wordAt sg o := rfl
@[simp] theorem State.permAt_setReg (r : Reg16) (v : Word) (x : Addr) : (s.setReg r v).permAt x = s.permAt x := rfl
@[simp] theorem State.allows_setReg (r : Reg16) (v : Word) (p : Permission) (x : Addr) : (s.setReg r v).allows p x = s.allows p x := rfl

/-! ### setReg8 -/

@[simp] theorem State.setReg8_sregs (r : Reg8) (v : Byte) : (s.setReg8 r v).sregs = s.sregs := rfl
@[simp] theorem State.setReg8_ip (r : Reg8) (v : Byte) : (s.setReg8 r v).ip = s.ip := rfl
@[simp] theorem State.setReg8_flags (r : Reg8) (v : Byte) : (s.setReg8 r v).flags = s.flags := rfl
@[simp] theorem State.setReg8_segOverride (r : Reg8) (v : Byte) : (s.setReg8 r v).segOverride = s.segOverride := rfl
@[simp] theorem State.setReg8_rep (r : Reg8) (v : Byte) : (s.setReg8 r v).rep = s.rep := rfl
@[simp] theorem State.setReg8_repeatWhile (r : Reg8) (v : Byte) : (s.setReg8 r v).repeatWhile = s.repeatWhile := rfl
@[simp] theorem State.setReg8_lastPrefixRep (r : Reg8) (v : Byte) : (s.setReg8 r v).lastPrefixRep = s.lastPrefixRep := rfl
@[simp] theorem State.setReg8_ea (r : Reg8) (v : Byte) : (s.setReg8 r v).ea = s.ea := rfl
@[simp] theorem State.setReg8_raised (r : Reg8) (v : Byte) : (s.setReg8 r v).raised = s.raised := rfl
@[simp] theorem State.setReg8_stepBytes (r : Reg8) (v : Byte) : (s.setReg8 r v).stepBytes = s.stepBytes := rfl
@[simp] theorem State.setReg8_instructionCount (r : Reg8) (v : Byte) : (s.setReg8 r v).instructionCount = s.instructionCount := rfl
@[simp] theorem State.setReg8_runState (r : Reg8) (v : Byte) : (s.setReg8 r v).runState = s.runState := rfl
@[simp] theorem State.setReg8_mem (r : Reg8) (v : Byte) : (s.setReg8 r v).mem = s.mem := rfl
@[simp] theorem State.setReg8_perm (r : Reg8) (v : Byte) : (s.setReg8 r v).perm = s.perm := rfl
@[simp] theorem State.setReg8_singleStep (r : Reg8) (v : Byte) : (s.setReg8 r v).singleStep = s.singleStep := rfl
@[simp] theorem State.setReg8_host (r : Reg8) (v : Byte) : (s.setReg8 r v).host = s.host := rfl
@[simp] theorem State.setReg8_atInterrupt (r : Reg8) (v : Byte) : (s.setReg8 r v).atInterrupt = s.atInterrupt := rfl
@[simp] theorem State.setReg8_calls (r : Reg8) (v : Byte) : (s.setReg8 r v).calls = s.calls := rfl
@[simp] theorem State.setReg8_draws (r : Reg8) (v : Byte) : (s.setReg8 r v).draws = s.draws := rfl
@[simp] theorem State.sreg_setReg8 (r : Reg8) (v : Byte) (x : SReg) : (s.setReg8 r v).sreg x = s.sreg x := rfl
@[simp] theorem State.flag_setReg8 (r : Reg8) (v : Byte) (x : Flag) : (s.setReg8 r v).flag x = s.flag x := rfl
@[simp] theorem State.flags16_setReg8 (r : Reg8) (v : Byte) : (s.setReg8 r v).flags16 = s.flags16 := rfl
@[simp] theorem State.draw_setReg8 (r : Reg8) (v : Byte) : (s.setReg8 r v).draw = s.draw := rfl
@[simp] theorem State.peek_setReg8 (r : Reg8) (v : Byte) (x : Addr) : (s.setReg8 r v).peek x = s.peek x := rfl
@[simp] theorem State.byteAt_setReg8 (r : Reg8) (v : Byte) (sg o : Word) : (s.setReg8 r v).byteAt sg o = s.byteAt sg o := rfl
@[simp] theorem State.wordAt_setReg8 (r : Reg8) (v : Byte) (sg o : Word) : (s.setReg8 r v).wordAt sg o = s.wordAt sg o := rfl
@[simp] theorem State.permAt_setReg8 (r : Reg8) (v : Byte) (x : Addr) : (s.setReg8 r v).permAt x = s.permAt x := rfl
@[simp] theorem State.allows_setReg8 (r : Reg8) (v : Byte) (p : Permission) (x : Addr) : (s.setReg8 r v).allows p x = s.allows p x := rfl

/-! ### setSReg -/

@[simp] theorem State.setSReg_regs (r : SReg) (v : Word) : (s.setSReg r v).regs = s.regs := rfl
@[simp] theorem State.setSReg_ip (r : SReg) (v : Word) : (s.setSReg r v).ip = s.ip := rfl
@[simp] theorem State.setSReg_flags (r : SReg) (v : Word) : (s.setSReg r v).flags = s.flags := rfl
@[simp] theorem State.setSReg_segOverride (r : SReg) (v : Word) : (s.setSReg r v).segOverride = s.segOverride := rfl
@[simp] theorem State.setSReg_rep (r : SReg) (v : Word) : (s.setSReg r v).rep = s.rep := rfl
@[simp] theorem State.setSReg_repeatWhile (r : SReg) (v : Word) : (s.setSReg r v).repeatWhile = s.repeatWhile := rfl
@[simp] theorem State.setSReg_lastPrefixRep (r : SReg) (v : Word) : (s.setSReg r v).lastPrefixRep = s.lastPrefixRep := rfl
@[simp] theorem State.setSReg_ea (r : SReg) (v : Word) : (s.setSReg r v).ea = s.ea := rfl
@[simp] theorem State.setSReg_raised (r : SReg) (v : Word) : (s.setSReg r v).raised = s.raised := rfl
@[simp] theorem State.setSReg_stepBytes (r : SReg) (v : Word) : (s.setSReg r v).stepBytes = s.stepBytes := rfl
@[simp] theorem State.setSReg_instructionCount (r : SReg) (v : Word) : (s.setSReg r v).instructionCount = s.instructionCount := rfl
@[simp] theorem State.setSReg_runState (r : SReg) (v : Word) : (s.setSReg r v).runState = s.runState := rfl
@[simp] theorem State.setSReg_mem (r : SReg) (v : Word) : (s.setSReg r v).mem = s.mem := rfl
@[simp] theorem State.setSReg_perm (r : SReg) (v : Word) : (s.setSReg r v).perm = s.perm := rfl
@[simp] theorem State.setSReg_singleStep (r : SReg) (v : Word) : (s.setSReg r v).singleStep = s.singleStep := rfl
@[simp] theorem State.setSReg_host (r : SReg) (v : Word) : (s.setSReg r v).host = s.host := rfl
@[simp] theorem State.setSReg_atInterrupt (r : SReg) (v : Word) : (s.setSReg r v).atInterrupt = s.atInterrupt := rfl
@[simp] theorem State.setSReg_calls (r : SReg) (v : Word) : (s.setSReg r v).calls = s.calls := rfl
@[simp] theorem State.setSReg_draws (r : SReg) (v : Word) : (s.setSReg r v).draws = s.draws := rfl
@[simp] theorem State.reg_setSReg (r : SReg) (v : Word) (x : Reg16) : (s.setSReg r v).reg x = s.reg x := rfl
@[simp] theorem State.reg8_setSReg (r : SReg) (v : Word) (x : Reg8) : (s.setSReg r v).reg8 x = s.reg8 x := rfl
@[simp] theorem State.flag_setSReg (r : SReg) (v : Word) (x : Flag) : (s.setSReg r v).flag x = s.flag x := rfl
@[simp] theorem State.flags16_setSReg (r : SReg) (v : Word) : (s.setSReg r v).flags16 = s.flags16 := rfl
@[simp] theorem State.draw_setSReg (r : SReg) (v : Word) : (s.setSReg r v).draw = s.draw := rfl
@[simp] theorem State.peek_setSReg (r : SReg) (v : Word) (x : Addr) : (s.setSReg r v).peek x = s.peek x := rfl
@[simp] theorem State.byteAt_setSReg (r : SReg) (v : Word) (sg o : Word) : (s.setSReg r v).byteAt sg o = s.byteAt sg o := rfl
@[simp] theorem State.wordAt_setSReg (r : SReg) (v : Word) (sg o : Word) : (s.setSReg r v).wordAt sg o = s.wordAt sg o := rfl
@[simp] theorem State.permAt_setSReg (r : SReg) (v : Word) (x : Addr) : (s.setSReg r v).permAt x = s.permAt x := rfl
@[simp] theorem State.allows_setSReg (r : SReg) (v : Word) (p : Permission) (x : Addr) : (s.setSReg r v).allows p x = s.allows p x := rfl

/-! ### setIp -/

@[simp] theorem State.setIp_regs (v : Word) : (s.setIp v).regs = s.regs := rfl
@[simp] theorem State.setIp_sregs (v : Word) : (s.setIp v).sregs = s.sregs := rfl
@[simp] theorem State.setIp_flags (v : Word) : (s.setIp v).flags = s.flags := rfl
@[simp] theorem State.setIp_segOverride (v : Word) : (s.setIp v).segOverride = s.segOverride := rfl
@[simp] theorem State.setIp_rep (v : Word) : (s.setIp v).rep = s.rep := rfl
@[simp] theorem State.setIp_repeatWhile (v : Word) : (s.setIp v).repeatWhile = s.repeatWhile := rfl
@[simp] theorem State.setIp_lastPrefixRep (v : Word) : (s.setIp v).lastPrefixRep = s.lastPrefixRep := rfl
@[simp] theorem State.setIp_ea (v : Word) : (s.setIp v).ea = s.ea := rfl
@[simp] theorem State.setIp_raised (v : Word) : (s.setIp v).raised = s.raised := rfl
@[simp] theorem State.setIp_stepBytes (v : Word) : (s.setIp v).stepBytes = s.stepBytes := rfl
@[simp] theorem State.setIp_instructionCount (v : Word) : (s.setIp v).instructionCount = s.instructionCount := rfl
@[simp] theorem State.setIp_runState (v : Word) : (s.setIp v).runState = s.runState := rfl
@[simp] theorem State.setIp_mem (v : Word) : (s.setIp v).mem = s.mem := rfl
@[simp] theorem State.setIp_perm (v : Word) : (s.setIp v).perm = s.perm := rfl
@[simp] theorem State.setIp_singleStep (v : Word) : (s.setIp v).singleStep = s.singleStep := rfl
@[simp] theorem State.setIp_host (v : Word) : (s.setIp v).host = s.host := rfl
@[simp] theorem State.setIp_atInterrupt (v : Word) : (s.setIp v).atInterrupt = s.atInterrupt := rfl
@[simp] theorem State.setIp_calls (v : Word) : (s.setIp v).calls = s.calls := rfl
@[simp] theorem State.setIp_draws (v : Word) : (s.setIp v).draws = s.draws := rfl
@[simp] theorem State.reg_setIp (v : Word) (x : Reg16) : (s.setIp v).reg x = s.reg x := rfl
@[simp] theorem State.reg8_setIp (v : Word) (x : Reg8) : (s.setIp v).reg8 x = s.reg8 x := rfl
@[simp] theorem State.sreg_setIp (v : Word) (x : SReg) : (s.setIp v).sreg x = s.sreg x := rfl
@[simp] theorem State.flag_setIp (v : Word) (x : Flag) : (s.setIp v).flag x = s.flag x := rfl
@[simp] theorem State.flags16_setIp (v : Word) : (s.setIp v).flags16 = s.flags16 := rfl
@[simp] theorem State.draw_setIp (v : Word) : (s.setIp v).draw = s.draw := rfl
@[simp] theorem State.peek_setIp (v : Word) (x : Addr) : (s.setIp v).peek x = s.peek x := rfl
@[simp] theorem State.byteAt_setIp (v : Word) (sg o : Word) : (s.setIp v).byteAt sg o = s.byteAt sg o := rfl
@[simp] theorem State.wordAt_setIp (v : Word) (sg o : Word) : (s.setIp v).wordAt sg o = s.wordAt sg o := rfl
@[simp] theorem State.permAt_setIp (v : Word) (x : Addr) : (s.setIp v).permAt x = s.permAt x := rfl
@[simp] theorem State.allows_setIp (v : Word) (p : Permission) (x : Addr) : (s.setIp v).allows p x = s.allows p x := rfl

/-! ### setRunState -/

@[simp] theorem State.setRunState_regs (r : RunState) : (s.setRunState r).regs = s.regs := rfl
@[simp] theorem State.setRunState_sregs (r : RunState) : (s.setRunState r).sregs = s.sregs := rfl
@[simp] theorem State.setRunState_ip (r : RunState) : (s.setRunState r).ip = s.ip := rfl
@[simp] theorem State.setRunState_flags (r : RunState) : (s.setRunState r).flags = s.flags := rfl
@[simp] theorem State.setRunState_segOverride (r : RunState) : (s.setRunState r).segOverride = s.segOverride := rfl
@[simp] theorem State.setRunState_rep (r : RunState) : (s.setRunState r).rep = s.rep := rfl
@[simp] theorem State.setRunState_repeatWhile (r : RunState) : (s.setRunState r).repeatWhile = s.repeatWhile := rfl
@[simp] theorem State.setRunState_lastPrefixRep (r : RunState) : (s.setRunState r).lastPrefixRep = s.lastPrefixRep := rfl
@[simp] theorem State.setRunState_ea (r : RunState) : (s.setRunState r).ea = s.ea := rfl
@[simp] theorem State.setRunState_raised (r : RunState) : (s.setRunState r).raised = s.raised := rfl
@[simp] theorem State.setRunState_stepBytes (r : RunState) : (s.setRunState r).stepBytes = s.stepBytes := rfl
@[simp] theorem State.setRunState_instructionCount (r : RunState) : (s.setRunState r).instructionCount = s.instructionCount := rfl
@[simp] theorem State.setRunState_mem (r : RunState) : (s.setRunState r).mem = s.mem := rfl
@[simp] theorem State.setRunState_perm (r : RunState) : (s.setRunState r).perm = s.perm := rfl
@[simp] theorem State.setRunState_singleStep (r : RunState) : (s.setRunState r).singleStep = s.singleStep := rfl
@[simp] theorem State.setRunState_host (r : RunState) : (s.setRunState r).host = s.host := rfl
@[simp] theorem State.setRunState_atInterrupt (r : RunState) : (s.setRunState r).atInterrupt = s.atInterrupt := rfl
@[simp] theorem State.setRunState_calls (r : RunState) : (s.setRunState r).calls = s.calls := rfl
@[simp] theorem State.setRunState_draws (r : RunState) : (s.setRunState r).draws = s.draws := rfl
@[simp] theorem State.reg_setRunState (r : RunState) (x : Reg16) : (s.setRunState r).reg x = s.reg x := rfl
@[simp] theorem State.reg8_setRunState (r : RunState) (x : Reg8) : (s.setRunState r).reg8 x = s.reg8 x := rfl
@[simp] theorem State.sreg_setRunState (r : RunState) (x : SReg) : (s.setRunState r).sreg x = s.sreg x := rfl
@[simp] theorem State.flag_setRunState (r : RunState) (x : Flag) : (s.setRunState r).flag x = s.flag x := rfl
@[simp] theorem State.flags16_setRunState (r : RunState) : (s.setRunState r).flags16 = s.flags16 := rfl
@[simp] theorem State.draw_setRunState (r : RunState) : (s.setRunState r).draw = s.draw := rfl
@[simp] theorem State.peek_setRunState (r : RunState) (x : Addr) : (s.setRunState r).peek x = s.peek x := rfl
@[simp] theorem State.byteAt_setRunState (r : RunState) (sg o : Word) : (s.setRunState r).byteAt sg o = s.byteAt sg o := rfl
@[simp] theorem State.wordAt_setRunState (r : RunState) (sg o : Word) : (s.setRunState r).wordAt sg o = s.wordAt sg o := rfl
@[simp] theorem State.permAt_setRunState (r : RunState) (x : Addr) : (s.setRunState r).permAt x = s.permAt x := rfl
@[simp] theorem State.allows_setRunState (r : RunState) (p : Permission) (x : Addr) : (s.setRunState r).allows p x = s.allows p x := rfl

/-! ### markRaised -/

@[simp] theorem State.markRaised_regs : s.markRaised.regs = s.regs := rfl
@[simp] theorem State.markRaised_sregs : s.markRaised.sregs = s.sregs := rfl
@[simp] theorem State.markRaised_ip : s.markRaised.ip = s.ip := rfl
@[simp] theorem State.markRaised_flags : s.markRaised.flags = s.flags := rfl
@[simp] theorem State.markRaised_segOverride : s.markRaised.segOverride = s.segOverride := rfl
@[simp] theorem State.markRaised_rep : s.markRaised.rep = s.rep := rfl
@[simp] theorem State.markRaised_repeatWhile : s.markRaised.repeatWhile = s.repeatWhile := rfl
@[simp] theorem State.markRaised_lastPrefixRep : s.markRaised.lastPrefixRep = s.lastPrefixRep := rfl
@[simp] theorem State.markRaised_ea : s.markRaised.ea = s.ea := rfl
@[simp] theorem State.markRaised_stepBytes : s.markRaised.stepBytes = s.stepBytes := rfl
@[simp] theorem State.markRaised_instructionCount : s.markRaised.instructionCount = s.instructionCount := rfl
@[simp] theorem State.markRaised_runState : s.markRaised.runState = s.runState := rfl
@[simp] theorem State.markRaised_mem : s.markRaised.mem = s.mem := rfl
@[simp] theorem State.markRaised_perm : s.markRaised.perm = s.perm := rfl
@[simp] theorem State.markRaised_singleStep : s.markRaised.singleStep = s.singleStep := rfl
@[simp] theorem State.markRaised_host : s.markRaised.host = s.host := rfl
@[simp] theorem State.markRaised_atInterrupt : s.markRaised.atInterrupt = s.atInterrupt := rfl
@[simp] theorem State.markRaised_calls : s.markRaised.calls = s.calls := rfl
@[simp] theorem State.markRaised_draws : s.markRaised.draws = s.draws := rfl
@[simp] theorem State.reg_markRaised (x : Reg16) : s.markRaised.reg x = s.reg x := rfl
@[simp] theorem State.reg8_markRaised (x : Reg8) : s.markRaised.reg8 x = s.reg8 x := rfl
@[simp] theorem State.sreg_markRaised (x : SReg) : s.markRaised.sreg x = s.sreg x := rfl
@[simp] theorem State.flag_markRaised (x : Flag) : s.markRaised.flag x = s.flag x := rfl
@[simp] theorem State.flags16_markRaised : s.markRaised.flags16 = s.flags16 := rfl
@[simp] theorem State.draw_markRaised : s.markRaised.draw = s.draw := rfl
@[simp] theorem State.peek_markRaised (x : Addr) : s.markRaised.peek x = s.peek x := rfl
@[simp] theorem State.byteAt_markRaised (sg o : Word) : s.markRaised.byteAt sg o = s.byteAt sg o := rfl
@[simp] theorem State.wordAt_markRaised (sg o : Word) : s.markRaised.wordAt sg o = s.wordAt sg o := rfl
@[simp] theorem State.permAt_markRaised (x : Addr) : s.markRaised.permAt x = s.permAt x := rfl
@[simp] theorem State.allows_markRaised (p : Permission) (x : Addr) : s.markRaised.allows p x = s.allows p x := rfl

/-! ### counted -/

@[simp] theorem State.counted_regs : s.counted.regs = s.regs := rfl
@[simp] theorem State.counted_sregs : s.counted.sregs = s.sregs := rfl
@[simp] theorem State.counted_ip : s.counted.ip = s.ip := rfl
@[simp] theorem State.counted_flags : s.counted.flags = s.flags := rfl
@[simp] theorem State.counted_segOverride : s.counted.segOverride = s.segOverride := rfl
@[simp] theorem State.counted_rep : s.counted.rep = s.rep := rfl
@[simp] theorem State.counted_repeatWhile : s.counted.repeatWhile = s.repeatWhile := rfl
@[simp] theorem State.counted_lastPrefixRep : s.counted.lastPrefixRep = s.lastPrefixRep := rfl
@[simp] theorem State.counted_ea : s.counted.ea = s.ea := rfl
@[simp] theorem State.counted_raised : s.counted.raised = s.raised := rfl
@[simp] theorem State.counted_stepBytes : s.counted.stepBytes = s.stepBytes := rfl
@[simp] theorem State.counted_runState : s.counted.runState = s.runState := rfl
@[simp] theorem State.counted_mem : s.counted.mem = s.mem := rfl
@[simp] theorem State.counted_perm : s.counted.perm = s.perm := rfl
@[simp] theorem State.counted_singleStep : s.counted.singleStep = s.singleStep := rfl
@[simp] theorem State.counted_host : s.counted.host = s.host := rfl
@[simp] theorem State.counted_atInterrupt : s.counted.atInterrupt = s.atInterrupt := rfl
@[simp] theorem State.counted_calls : s.counted.calls = s.calls := rfl
@[simp] theorem State.counted_draws : s.counted.draws = s.draws := rfl
@[simp] theorem State.reg_counted (x : Reg16) : s.counted.reg x = s.reg x := rfl
@[simp] theorem State.reg8_counted (x : Reg8) : s.counted.reg8 x = s.reg8 x := rfl
@[simp] theorem State.sreg_counted (x : SReg) : s.counted.sreg x = s.sreg x := rfl
@[simp] theorem State.flag_counted (x : Flag) : s.counted.flag x = s.flag x := rfl
@[simp] theorem State.flags16_counted : s.counted.flags16 = s.flags16 := rfl
@[simp] theorem State.draw_counted : s.counted.draw = s.draw := rfl
@[simp] theorem State.peek_counted (x : Addr) : s.counted.peek x = s.peek x := rfl
@[simp] theorem State.byteAt_counted (sg o : Word) : s.counted.byteAt sg o = s.byteAt sg o := rfl
@[simp] theorem State.wordAt_counted (sg o : Word) : s.counted.wordAt sg o = s.wordAt sg o := rfl
@[simp] theorem State.permAt_counted (x : Addr) : s.counted.permAt x = s.permAt x := rfl
@[simp] theorem State.allows_counted (p : Permission) (x : Addr) : s.counted.allows p x = s.allows p x := rfl

/-! ### setFlag -/

@[simp] theorem State.setFlag_regs (f : Flag) (b : Bool) : (s.setFlag f b).regs = s.regs := rfl
@[simp] theorem State.setFlag_sregs (f : Flag) (b : Bool) : (s.setFlag f b).sregs = s.sregs := rfl
@[simp] theorem State.setFlag_ip (f : Flag) (b : Bool) : (s.setFlag f b).ip = s.ip := rfl
@[simp] theorem State.setFlag_segOverride (f : Flag) (b : Bool) : (s.setFlag f b).segOverride = s.segOverride := rfl
@[simp] theorem State.setFlag_rep (f : Flag) (b : Bool) : (s.setFlag f b).rep = s.rep := rfl
@[simp] theorem State.setFlag_repeatWhile (f : Flag) (b : Bool) : (s.setFlag f b).repeatWhile = s.repeatWhile := rfl
@[simp] theorem State.setFlag_lastPrefixRep (f : Flag) (b : Bool) : (s.setFlag f b).lastPrefixRep = s.lastPrefixRep := rfl
@[simp] theorem State.setFlag_ea (f : Flag) (b : Bool) : (s.setFlag f b).ea = s.ea := rfl
@[simp] theorem State.setFlag_raised (f : Flag) (b : Bool) : (s.setFlag f b).raised = s.raised := rfl
@[simp] theorem State.setFlag_stepBytes (f : Flag) (b : Bool) : (s.setFlag f b).stepBytes = s.stepBytes := rfl
@[simp] theorem State.setFlag_instructionCount (f : Flag) (b : Bool) : (s.setFlag f b).instructionCount = s.instructionCount := rfl
@[simp] theorem State.setFlag_runState (f : Flag) (b : Bool) : (s.setFlag f b).runState = s.runState := rfl
@[simp] theorem State.setFlag_mem (f : Flag) (b : Bool) : (s.setFlag f b).mem = s.mem := rfl
@[simp] theorem State.setFlag_perm (f : Flag) (b : Bool) : (s.setFlag f b).perm = s.perm := rfl
@[simp] theorem State.setFlag_singleStep (f : Flag) (b : Bool) : (s.setFlag f b).singleStep = s.singleStep := rfl
@[simp] theorem State.setFlag_host (f : Flag) (b : Bool) : (s.setFlag f b).host = s.host := rfl
@[simp] theorem State.setFlag_atInterrupt (f : Flag) (b : Bool) : (s.setFlag f b).atInterrupt = s.atInterrupt := rfl
@[simp] theorem State.setFlag_calls (f : Flag) (b : Bool) : (s.setFlag f b).calls = s.calls := rfl
@[simp] theorem State.setFlag_draws (f : Flag) (b : Bool) : (s.setFlag f b).draws = s.draws := rfl
@[simp] theorem State.reg_setFlag (f : Flag) (b : Bool) (x : Reg16) : (s.setFlag f b).reg x = s.reg x := rfl
@[simp] theorem State.reg8_setFlag (f : Flag) (b : Bool) (x : Reg8) : (s.setFlag f b).reg8 x = s.reg8 x := rfl
@[simp] theorem State.sreg_setFlag (f : Flag) (b : Bool) (x : SReg) : (s.setFlag f b).sreg x = s.sreg x := rfl
@[simp] theorem State.draw_setFlag (f : Flag) (b : Bool) : (s.setFlag f b).draw = s.draw := rfl
@[simp] theorem State.peek_setFlag (f : Flag) (b : Bool) (x : Addr) : (s.setFlag f b).peek x = s.peek x := rfl
@[simp] theorem State.byteAt_setFlag (f : Flag) (b : Bool) (sg o : Word) : (s.setFlag f b).byteAt sg o = s.byteAt sg o := rfl
@[simp] theorem State.wordAt_setFlag (f : Flag) (b : Bool) (sg o : Word) : (s.setFlag f b).wordAt sg o = s.wordAt sg o := rfl
@[simp] theorem State.permAt_setFlag (f : Flag) (b : Bool) (x : Addr) : (s.setFlag f b).permAt x = s.permAt x := rfl
@[simp] theorem State.allows_setFlag (f : Flag) (b : Bool) (p : Permission) (x : Addr) : (s.setFlag f b).allows p x = s.allows p x := rfl

/-! ### mapFlags -/

@[simp] theorem State.mapFlags_regs (g : Word → Word) : (s.mapFlags g).regs = s.regs := rfl
@[simp] theorem State.mapFlags_sregs (g : Word → Word) : (s.mapFlags g).sregs = s.sregs := rfl
@[simp] theorem State.mapFlags_ip (g : Word → Word) : (s.mapFlags g).ip = s.ip := rfl
@[simp] theorem State.mapFlags_segOverride (g : Word → Word) : (s.mapFlags g).segOverride = s.segOverride := rfl
@[simp] theorem State.mapFlags_rep (g : Word → Word) : (s.mapFlags g).rep = s.rep := rfl
@[simp] theorem State.mapFlags_repeatWhile (g : Word → Word) : (s.mapFlags g).repeatWhile = s.repeatWhile := rfl
@[simp] theorem State.mapFlags_lastPrefixRep (g : Word → Word) : (s.mapFlags g).lastPrefixRep = s.lastPrefixRep := rfl
@[simp] theorem State.mapFlags_ea (g : Word → Word) : (s.mapFlags g).ea = s.ea := rfl
@[simp] theorem State.mapFlags_raised (g : Word → Word) : (s.mapFlags g).raised = s.raised := rfl
@[simp] theorem State.mapFlags_stepBytes (g : Word → Word) : (s.mapFlags g).stepBytes = s.stepBytes := rfl
@[simp] theorem State.mapFlags_instructionCount (g : Word → Word) : (s.mapFlags g).instructionCount = s.instructionCount := rfl
@[simp] theorem State.mapFlags_runState (g : Word → Word) : (s.mapFlags g).runState = s.runState := rfl
@[simp] theorem State.mapFlags_mem (g : Word → Word) : (s.mapFlags g).mem = s.mem := rfl
@[simp] theorem State.mapFlags_perm (g : Word → Word) : (s.mapFlags g).perm = s.perm := rfl
@[simp] theorem State.mapFlags_singleStep (g : Word → Word) : (s.mapFlags g).singleStep = s.singleStep := rfl
@[simp] theorem State.mapFlags_host (g : Word → Word) : (s.mapFlags g).host = s.host := rfl
@[simp] theorem State.mapFlags_atInterrupt (g : Word → Word) : (s.mapFlags g).atInterrupt = s.atInterrupt := rfl
@[simp] theorem State.mapFlags_calls (g : Word → Word) : (s.mapFlags g).calls = s.calls := rfl
@[simp] theorem State.mapFlags_draws (g : Word → Word) : (s.mapFlags g).draws = s.draws := rfl
@[simp] theorem State.reg_mapFlags (g : Word → Word) (x : Reg16) : (s.mapFlags g).reg x = s.reg x := rfl
@[simp] theorem State.reg8_mapFlags (g : Word → Word) (x : Reg8) : (s.mapFlags g).reg8 x = s.reg8 x := rfl
@[simp] theorem State.sreg_mapFlags (g : Word → Word) (x : SReg) : (s.mapFlags g).sreg x = s.sreg x := rfl
@[simp] theorem State.draw_mapFlags (g : Word → Word) : (s.mapFlags g).draw = s.draw := rfl
@[simp] theorem State.peek_mapFlags (g : Word → Word) (x : Addr) : (s.mapFlags g).peek x = s.peek x := rfl
@[simp] theorem State.byteAt_mapFlags (g : Word → Word) (sg o : Word) : (s.mapFlags g).byteAt sg o = s.byteAt sg o := rfl
@[simp] theorem State.wordAt_mapFlags (g : Word → Word) (sg o : Word) : (s.mapFlags g).wordAt sg o = s.wordAt sg o := rfl
@[simp] theorem State.permAt_mapFlags (g : Word → Word) (x : Addr) : (s.mapFlags g).permAt x = s.permAt x := rfl
@[simp] theorem State.allows_mapFlags (g : Word → Word) (p : Permission) (x : Addr) : (s.mapFlags g).allows p x = s.allows p x := rfl

/-! ### setFlags16 -/

@[simp] theorem State.setFlags16_regs (v : Word) : (s.setFlags16 v).regs = s.regs := rfl
@[simp] theorem State.setFlags16_sregs (v : Word) : (s.setFlags16 v).sregs = s.sregs := rfl
@[simp] theorem State.setFlags16_ip (v : Word) : (s.setFlags16 v).ip = s.ip := rfl
@[simp] theorem State.setFlags16_segOverride (v : Word) : (s.setFlags16 v).segOverride = s.segOverride := rfl
@[simp] theorem State.setFlags16_rep (v : Word) : (s.setFlags16 v).rep = s.rep := rfl
@[simp] theorem State.setFlags16_repeatWhile (v : Word) : (s.setFlags16 v).repeatWhile = s.repeatWhile := rfl
@[simp] theorem State.setFlags16_lastPrefixRep (v : Word) : (s.setFlags16 v).lastPrefixRep = s.lastPrefixRep := rfl
@[simp] theorem State.setFlags16_ea (v : Word) : (s.setFlags16 v).ea = s.ea := rfl
@[simp] theorem State.setFlags16_raised (v : Word) : (s.setFlags16 v).raised = s.raised := rfl
@[simp] theorem State.setFlags16_stepBytes (v : Word) : (s.setFlags16 v).stepBytes = s.stepBytes := rfl
@[simp] theorem State.setFlags16_instructionCount (v : Word) : (s.setFlags16 v).instructionCount = s.instructionCount := rfl
@[simp] theorem State.setFlags16_runState (v : Word) : (s.setFlags16 v).runState = s.runState := rfl
@[simp] theorem State.setFlags16_mem (v : Word) : (s.setFlags16 v).mem = s.mem := rfl
@[simp] theorem State.setFlags16_perm (v : Word) : (s.setFlags16 v).perm = s.perm := rfl
@[simp] theorem State.setFlags16_singleStep (v : Word) : (s.setFlags16 v).singleStep = s.singleStep := rfl
@[simp] theorem State.setFlags16_host (v : Word) : (s.setFlags16 v).host = s.host := rfl
@[simp] theorem State.setFlags16_atInterrupt (v : Word) : (s.setFlags16 v).atInterrupt = s.atInterrupt := rfl
@[simp] theorem State.setFlags16_calls (v : Word) : (s.setFlags16 v).calls = s.calls := rfl
@[simp] theorem State.setFlags16_draws (v : Word) : (s.setFlags16 v).draws = s.draws := rfl
@[simp] theorem State.reg_setFlags16 (v : Word) (x : Reg16) : (s.setFlags16 v).reg x = s.reg x := rfl
@[simp] theorem State.reg8_setFlags16 (v : Word) (x : Reg8) : (s.setFlags16 v).reg8 x = s.reg8 x := rfl
@[simp] theorem State.sreg_setFlags16 (v : Word) (x : SReg) : (s.setFlags16 v).sreg x = s.sreg x := rfl
@[simp] theorem State.draw_setFlags16 (v : Word) : (s.setFlags16 v).draw = s.draw := rfl
@[simp] theorem State.peek_setFlags16 (v : Word) (x : Addr) : (s.setFlags16 v).peek x = s.peek x := rfl
@[simp] theorem State.byteAt_setFlags16 (v : Word) (sg o : Word) : (s.setFlags16 v).byteAt sg o = s.byteAt sg o := rfl
@[simp] theorem State.wordAt_setFlags16 (v : Word) (sg o : Word) : (s.setFlags16 v).wordAt sg o = s.wordAt sg o := rfl
@[simp] theorem State.permAt_setFlags16 (v : Word) (x : Addr) : (s.setFlags16 v).permAt x = s.permAt x := rfl
@[simp] theorem State.allows_setFlags16 (v : Word) (p : Permission) (x : Addr) : (s.setFlags16 v).allows p x = s.allows p x := rfl

/-! ### drawn -/

@[simp] theorem State.drawn_regs : s.drawn.regs = s.regs := rfl
@[simp] theorem State.drawn_sregs : s.drawn.sregs = s.sregs := rfl
@[simp] theorem State.drawn_ip : s.drawn.ip = s.ip := rfl
@[simp] theorem State.drawn_flags : s.drawn.flags = s.flags := rfl
@[simp] theorem State.drawn_segOverride : s.drawn.segOverride = s.segOverride := rfl
@[simp] theorem State.drawn_rep : s.drawn.rep = s.rep := rfl
@[simp] theorem State.drawn_repeatWhile : s.drawn.repeatWhile = s.repeatWhile := rfl
@[simp] theorem State.drawn_lastPrefixRep : s.drawn.lastPrefixRep = s.lastPrefixRep := rfl
@[simp] theorem State.drawn_ea : s.drawn.ea = s.ea := rfl
@[simp] theorem State.drawn_raised : s.drawn.raised = s.raised := rfl
@[simp] theorem State.drawn_stepBytes : s.drawn.stepBytes = s.stepBytes := rfl
@[simp] theorem State.drawn_instructionCount : s.drawn.instructionCount = s.instructionCount := rfl
@[simp] theorem State.drawn_runState : s.drawn.runState = s.runState := rfl
@[simp] theorem State.drawn_mem : s.drawn.mem = s.mem := rfl
@[simp] theorem State.drawn_perm : s.drawn.perm = s.perm := rfl
@[simp] theorem State.drawn_singleStep : s.drawn.singleStep = s.singleStep := rfl
@[simp] theorem State.drawn_host : s.drawn.host = s.host := rfl
@[simp] theorem State.drawn_atInterrupt : s.drawn.atInterrupt = s.atInterrupt := rfl
@[simp] theorem State.drawn_calls : s.drawn.calls = s.calls := rfl
@[simp] theorem State.reg_drawn (x : Reg16) : s.drawn.reg x = s.reg x := rfl
@[simp] theorem State.reg8_drawn (x : Reg8) : s.drawn.reg8 x = s.reg8 x := rfl
@[simp] theorem State.sreg_drawn (x : SReg) : s.drawn.sreg x = s.sreg x := rfl
@[simp] theorem State.flag_drawn (x : Flag) : s.drawn.flag x = s.flag x := rfl
@[simp] theorem State.flags16_drawn : s.drawn.flags16 = s.flags16 := rfl
@[simp] theorem State.peek_drawn (x : Addr) : s.drawn.peek x = s.peek x := rfl
@[simp] theorem State.byteAt_drawn (sg o : Word) : s.drawn.byteAt sg o = s.byteAt sg o := rfl
@[simp] theorem State.wordAt_drawn (sg o : Word) : s.drawn.wordAt sg o = s.wordAt sg o := rfl
@[simp] theorem State.permAt_drawn (x : Addr) : s.drawn.permAt x = s.permAt x := rfl
@[simp] theorem State.allows_drawn (p : Permission) (x : Addr) : s.drawn.allows p x = s.allows p x := rfl

/-! ### freeFlag -/

@[simp] theorem State.freeFlag_regs (f : Flag) : (s.freeFlag f).regs = s.regs := rfl
@[simp] theorem State.freeFlag_sregs (f : Flag) : (s.freeFlag f).sregs = s.sregs := rfl
@[simp] theorem State.freeFlag_ip (f : Flag) : (s.freeFlag f).ip = s.ip := rfl
@[simp] theorem State.freeFlag_segOverride (f : Flag) : (s.freeFlag f).segOverride = s.segOverride := rfl
@[simp] theorem State.freeFlag_rep (f : Flag) : (s.freeFlag f).rep = s.rep := rfl
@[simp] theorem State.freeFlag_repeatWhile (f : Flag) : (s.freeFlag f).repeatWhile = s.repeatWhile := rfl
@[simp] theorem State.freeFlag_lastPrefixRep (f : Flag) : (s.freeFlag f).lastPrefixRep = s.lastPrefixRep := rfl
@[simp] theorem State.freeFlag_ea (f : Flag) : (s.freeFlag f).ea = s.ea := rfl
@[simp] theorem State.freeFlag_raised (f : Flag) : (s.freeFlag f).raised = s.raised := rfl
@[simp] theorem State.freeFlag_stepBytes (f : Flag) : (s.freeFlag f).stepBytes = s.stepBytes := rfl
@[simp] theorem State.freeFlag_instructionCount (f : Flag) : (s.freeFlag f).instructionCount = s.instructionCount := rfl
@[simp] theorem State.freeFlag_runState (f : Flag) : (s.freeFlag f).runState = s.runState := rfl
@[simp] theorem State.freeFlag_mem (f : Flag) : (s.freeFlag f).mem = s.mem := rfl
@[simp] theorem State.freeFlag_perm (f : Flag) : (s.freeFlag f).perm = s.perm := rfl
@[simp] theorem State.freeFlag_singleStep (f : Flag) : (s.freeFlag f).singleStep = s.singleStep := rfl
@[simp] theorem State.freeFlag_host (f : Flag) : (s.freeFlag f).host = s.host := rfl
@[simp] theorem State.freeFlag_atInterrupt (f : Flag) : (s.freeFlag f).atInterrupt = s.atInterrupt := rfl
@[simp] theorem State.freeFlag_calls (f : Flag) : (s.freeFlag f).calls = s.calls := rfl
@[simp] theorem State.reg_freeFlag (f : Flag) (x : Reg16) : (s.freeFlag f).reg x = s.reg x := rfl
@[simp] theorem State.reg8_freeFlag (f : Flag) (x : Reg8) : (s.freeFlag f).reg8 x = s.reg8 x := rfl
@[simp] theorem State.sreg_freeFlag (f : Flag) (x : SReg) : (s.freeFlag f).sreg x = s.sreg x := rfl
@[simp] theorem State.peek_freeFlag (f : Flag) (x : Addr) : (s.freeFlag f).peek x = s.peek x := rfl
@[simp] theorem State.byteAt_freeFlag (f : Flag) (sg o : Word) : (s.freeFlag f).byteAt sg o = s.byteAt sg o := rfl
@[simp] theorem State.wordAt_freeFlag (f : Flag) (sg o : Word) : (s.freeFlag f).wordAt sg o = s.wordAt sg o := rfl
@[simp] theorem State.permAt_freeFlag (f : Flag) (x : Addr) : (s.freeFlag f).permAt x = s.permAt x := rfl
@[simp] theorem State.allows_freeFlag (f : Flag) (p : Permission) (x : Addr) : (s.freeFlag f).allows p x = s.allows p x := rfl

/-! ### poke -/

@[simp] theorem State.poke_regs (a : Addr) (v : Byte) : (s.poke a v).regs = s.regs := rfl
@[simp] theorem State.poke_sregs (a : Addr) (v : Byte) : (s.poke a v).sregs = s.sregs := rfl
@[simp] theorem State.poke_ip (a : Addr) (v : Byte) : (s.poke a v).ip = s.ip := rfl
@[simp] theorem State.poke_flags (a : Addr) (v : Byte) : (s.poke a v).flags = s.flags := rfl
@[simp] theorem State.poke_segOverride (a : Addr) (v : Byte) : (s.poke a v).segOverride = s.segOverride := rfl
@[simp] theorem State.poke_rep (a : Addr) (v : Byte) : (s.poke a v).rep = s.rep := rfl
@[simp] theorem State.poke_repeatWhile (a : Addr) (v : Byte) : (s.poke a v).repeatWhile = s.repeatWhile := rfl
@[simp] theorem State.poke_lastPrefixRep (a : Addr) (v : Byte) : (s.poke a v).lastPrefixRep = s.lastPrefixRep := rfl
@[simp] theorem State.poke_ea (a : Addr) (v : Byte) : (s.poke a v).ea = s.ea := rfl
@[simp] theorem State.poke_raised (a : Addr) (v : Byte) : (s.poke a v).raised = s.raised := rfl
@[simp] theorem State.poke_stepBytes (a : Addr) (v : Byte) : (s.poke a v).stepBytes = s.stepBytes := rfl
@[simp] theorem State.poke_instructionCount (a : Addr) (v : Byte) : (s.poke a v).instructionCount = s.instructionCount := rfl
@[simp] theorem State.poke_runState (a : Addr) (v : Byte) : (s.poke a v).runState = s.runState := rfl
@[simp] theorem State.poke_perm (a : Addr) (v : Byte) : (s.poke a v).perm = s.perm := rfl
@[simp] theorem State.poke_singleStep (a : Addr) (v : Byte) : (s.poke a v).singleStep = s.singleStep := rfl
@[simp] theorem State.poke_host (a : Addr) (v : Byte) : (s.poke a v).host = s.host := rfl
@[simp] theorem State.poke_atInterrupt (a : Addr) (v : Byte) : (s.poke a v).atInterrupt = s.atInterrupt := rfl
@[simp] theorem State.poke_calls (a : Addr) (v : Byte) : (s.poke a v).calls = s.calls := rfl
@[simp] theorem State.poke_draws (a : Addr) (v : Byte) : (s.poke a v).draws = s.draws := rfl
@[simp] theorem State.reg_poke (a : Addr) (v : Byte) (x : Reg16) : (s.poke a v).reg x = s.reg x := rfl
@[simp] theorem State.reg8_poke (a : Addr) (v : Byte) (x : Reg8) : (s.poke a v).reg8 x = s.reg8 x := rfl
@[simp] theorem State.sreg_poke (a : Addr) (v : Byte) (x : SReg) : (s.poke a v).sreg x = s.sreg x := rfl
@[simp] theorem State.flag_poke (a : Addr) (v : Byte) (x : Flag) : (s.poke a v).flag x = s.flag x := rfl
@[simp] theorem State.flags16_poke (a : Addr) (v : Byte) : (s.poke a v).flags16 = s.flags16 := rfl
@[simp] theorem State.draw_poke (a : Addr) (v : Byte) : (s.poke a v).draw = s.draw := rfl
@[simp] theorem State.permAt_poke (a : Addr) (v : Byte) (x : Addr) : (s.poke a v).permAt x = s.permAt x := rfl
@[simp] theorem State.allows_poke (a : Addr) (v : Byte) (p : Permission) (x : Addr) : (s.poke a v).allows p x = s.allows p x := rfl

/-! ### setPermAt -/

@[simp] theorem State.setPermAt_regs (a : Addr) (v : Byte) : (s.setPermAt a v).regs = s.regs := rfl
@[simp] theorem State.setPermAt_sregs (a : Addr) (v : Byte) : (s.setPermAt a v).sregs = s.sregs := rfl
@[simp] theorem State.setPermAt_ip (a : Addr) (v : Byte) : (s.setPermAt a v).ip = s.ip := rfl
@[simp] theorem State.setPermAt_flags (a : Addr) (v : Byte) : (s.setPermAt a v).flags = s.flags := rfl
@[simp] theorem State.setPermAt_segOverride (a : Addr) (v : Byte) : (s.setPermAt a v).segOverride = s.segOverride := rfl
@[simp] theorem State.setPermAt_rep (a : Addr) (v : Byte) : (s.setPermAt a v).rep = s.rep := rfl
@[simp] theorem State.setPermAt_repeatWhile (a : Addr) (v : Byte) : (s.setPermAt a v).repeatWhile = s.repeatWhile := rfl
@[simp] theorem State.setPermAt_lastPrefixRep (a : Addr) (v : Byte) : (s.setPermAt a v).lastPrefixRep = s.lastPrefixRep := rfl
@[simp] theorem State.setPermAt_ea (a : Addr) (v : Byte) : (s.setPermAt a v).ea = s.ea := rfl
@[simp] theorem State.setPermAt_raised (a : Addr) (v : Byte) : (s.setPermAt a v).raised = s.raised := rfl
@[simp] theorem State.setPermAt_stepBytes (a : Addr) (v : Byte) : (s.setPermAt a v).stepBytes = s.stepBytes := rfl
@[simp] theorem State.setPermAt_instructionCount (a : Addr) (v : Byte) : (s.setPermAt a v).instructionCount = s.instructionCount := rfl
@[simp] theorem State.setPermAt_runState (a : Addr) (v : Byte) : (s.setPermAt a v).runState = s.runState := rfl
@[simp] theorem State.setPermAt_mem (a : Addr) (v : Byte) : (s.setPermAt a v).mem = s.mem := rfl
@[simp] theorem State.setPermAt_singleStep (a : Addr) (v : Byte) : (s.setPermAt a v).singleStep = s.singleStep := rfl
@[simp] theorem State.setPermAt_host (a : Addr) (v : Byte) : (s.setPermAt a v).host = s.host := rfl
@[simp] theorem State.setPermAt_atInterrupt (a : Addr) (v : Byte) : (s.setPermAt a v).atInterrupt = s.atInterrupt := rfl
@[simp] theorem State.setPermAt_calls (a : Addr) (v : Byte) : (s.setPermAt a v).calls = s.calls := rfl
@[simp] theorem State.setPermAt_draws (a : Addr) (v : Byte) : (s.setPermAt a v).draws = s.draws := rfl
@[simp] theorem State.reg_setPermAt (a : Addr) (v : Byte) (x : Reg16) : (s.setPermAt a v).reg x = s.reg x := rfl
@[simp] theorem State.reg8_setPermAt (a : Addr) (v : Byte) (x : Reg8) : (s.setPermAt a v).reg8 x = s.reg8 x := rfl
@[simp] theorem State.sreg_setPermAt (a : Addr) (v : Byte) (x : SReg) : (s.setPermAt a v).sreg x = s.sreg x := rfl
@[simp] theorem State.flag_setPermAt (a : Addr) (v : Byte) (x : Flag) : (s.setPermAt a v).flag x = s.flag x := rfl
@[simp] theorem State.flags16_setPermAt (a : Addr) (v : Byte) : (s.setPermAt a v).flags16 = s.flags16 := rfl
@[simp] theorem State.draw_setPermAt (a : Addr) (v : Byte) : (s.setPermAt a v).draw = s.draw := rfl
@[simp] theorem State.peek_setPermAt (a : Addr) (v : Byte) (x : Addr) : (s.setPermAt a v).peek x = s.peek x := rfl
@[simp] theorem State.byteAt_setPermAt (a : Addr) (v : Byte) (sg o : Word) : (s.setPermAt a v).byteAt sg o = s.byteAt sg o := rfl
@[simp] theorem State.wordAt_setPermAt (a : Addr) (v : Byte) (sg o : Word) : (s.setPermAt a v).wordAt sg o = s.wordAt sg o := rfl

/-! ### logCall -/

@[simp] theorem State.logCall_regs (c : HostCall) : (s.logCall c).regs = s.regs := rfl
@[simp] theorem State.logCall_sregs (c : HostCall) : (s.logCall c).sregs = s.sregs := rfl
@[simp] theorem State.logCall_ip (c : HostCall) : (s.logCall c).ip = s.ip := rfl
@[simp] theorem State.logCall_flags (c : HostCall) : (s.logCall c).flags = s.flags := rfl
@[simp] theorem State.logCall_segOverride (c : HostCall) : (s.logCall c).segOverride = s.segOverride := rfl
@[simp] theorem State.logCall_rep (c : HostCall) : (s.logCall c).rep = s.rep := rfl
@[simp] theorem State.logCall_repeatWhile (c : HostCall) : (s.logCall c).repeatWhile = s.repeatWhile := rfl
@[simp] theorem State.logCall_lastPrefixRep (c : HostCall) : (s.logCall c).lastPrefixRep = s.lastPrefixRep := rfl
@[simp] theorem State.logCall_ea (c : HostCall) : (s.logCall c).ea = s.ea := rfl
@[simp] theorem State.logCall_raised (c : HostCall) : (s.logCall c).raised = s.raised := rfl
@[simp] theorem State.logCall_stepBytes (c : HostCall) : (s.logCall c).stepBytes = s.stepBytes := rfl
@[simp] theorem State.logCall_instructionCount (c : HostCall) : (s.logCall c).instructionCount = s.instructionCount := rfl
@[simp] theorem State.logCall_runState (c : HostCall) : (s.logCall c).runState = s.runState := rfl
@[simp] theorem State.logCall_mem (c : HostCall) : (s.logCall c).mem = s.mem := rfl
@[simp] theorem State.logCall_perm (c : HostCall) : (s.logCall c).perm = s.perm := rfl
@[simp] theorem State.logCall_singleStep (c : HostCall) : (s.logCall c).singleStep = s.singleStep := rfl
@[simp] theorem State.logCall_host (c : HostCall) : (s.logCall c).host = s.host := rfl
@[simp] theorem State.logCall_atInterrupt (c : HostCall) : (s.logCall c).atInterrupt = s.atInterrupt := rfl
@[simp] theorem State.logCall_draws (c : HostCall) : (s.logCall c).draws = s.draws := rfl
@[simp] theorem State.reg_logCall (c : HostCall) (x : Reg16) : (s.logCall c).reg x = s.reg x := rfl
@[simp] theorem State.reg8_logCall (c : HostCall) (x : Reg8) : (s.logCall c).reg8 x = s.reg8 x := rfl
@[simp] theorem State.sreg_logCall (c : HostCall) (x : SReg) : (s.logCall c).sreg x = s.sreg x := rfl
@[simp] theorem State.flag_logCall (c : HostCall) (x : Flag) : (s.logCall c).flag x = s.flag x := rfl
@[simp] theorem State.flags16_logCall (c : HostCall) : (s.logCall c).flags16 = s.flags16 := rfl
@[simp] theorem State.draw_logCall (c : HostCall) : (s.logCall c).draw = s.draw := rfl
@[simp] theorem State.peek_logCall (c : HostCall) (x : Addr) : (s.logCall c).peek x = s.peek x := rfl
@[simp] theorem State.byteAt_logCall (c : HostCall) (sg o : Word) : (s.logCall c).byteAt sg o = s.byteAt sg o := rfl
@[simp] theorem State.wordAt_logCall (c : HostCall) (sg o : Word) : (s.logCall c).wordAt sg o = s.wordAt sg o := rfl
@[simp] theorem State.permAt_logCall (c : HostCall) (x : Addr) : (s.logCall c).permAt x = s.permAt x := rfl
@[simp] theorem State.allows_logCall (c : HostCall) (p : Permission) (x : Addr) : (s.logCall c).allows p x = s.allows p x := rfl

/-! ### told -/

@[simp] theorem State.told_regs (c : HostCall) : (s.told c).regs = s.regs := rfl
@[simp] theorem State.told_sregs (c : HostCall) : (s.told c).sregs = s.sregs := rfl
@[simp] theorem State.told_ip (c : HostCall) : (s.told c).ip = s.ip := rfl
@[simp] theorem State.told_flags (c : HostCall) : (s.told c).flags = s.flags := rfl
@[simp] theorem State.told_segOverride (c : HostCall) : (s.told c).segOverride = s.segOverride := rfl
@[simp] theorem State.told_rep (c : HostCall) : (s.told c).rep = s.rep := rfl
@[simp] theorem State.told_repeatWhile (c : HostCall) : (s.told c).repeatWhile = s.repeatWhile := rfl
@[simp] theorem State.told_lastPrefixRep (c : HostCall) : (s.told c).lastPrefixRep = s.lastPrefixRep := rfl
@[simp] theorem State.told_ea (c : HostCall) : (s.told c).ea = s.ea := rfl
@[simp] theorem State.told_raised (c : HostCall) : (s.told c).raised = s.raised := rfl
@[simp] theorem State.told_stepBytes (c : HostCall) : (s.told c).stepBytes = s.stepBytes := rfl
@[simp] theorem State.told_instructionCount (c : HostCall) : (s.told c).instructionCount = s.instructionCount := rfl
@[simp] theorem State.told_runState (c : HostCall) : (s.told c).runState = s.runState := rfl
@[simp] theorem State.told_mem (c : HostCall) : (s.told c).mem = s.mem := rfl
@[simp] theorem State.told_perm (c : HostCall) : (s.told c).perm = s.perm := rfl
@[simp] theorem State.told_singleStep (c : HostCall) : (s.told c).singleStep = s.singleStep := rfl
@[simp] theorem State.told_atInterrupt (c : HostCall) : (s.told c).atInterrupt = s.atInterrupt := rfl
@[simp] theorem State.told_draws (c : HostCall) : (s.told c).draws = s.draws := rfl
@[simp] theorem State.reg_told (c : HostCall) (x : Reg16) : (s.told c).reg x = s.reg x := rfl
@[simp] theorem State.reg8_told (c : HostCall) (x : Reg8) : (s.told c).reg8 x = s.reg8 x := rfl
@[simp] theorem State.sreg_told (c : HostCall) (x : SReg) : (s.told c).sreg x = s.sreg x := rfl
@[simp] theorem State.flag_told (c : HostCall) (x : Flag) : (s.told c).flag x = s.flag x := rfl
@[simp] theorem State.flags16_told (c : HostCall) : (s.told c).flags16 = s.flags16 := rfl
@[simp] theorem State.draw_told (c : HostCall) : (s.told c).draw = s.draw := rfl
@[simp] theorem State.peek_told (c : HostCall) (x : Addr) : (s.told c).peek x = s.peek x := rfl
@[simp] theorem State.byteAt_told (c : HostCall) (sg o : Word) : (s.told c).byteAt sg o = s.byteAt sg o := rfl
@[simp] theorem State.wordAt_told (c : HostCall) (sg o : Word) : (s.told c).wordAt sg o = s.wordAt sg o := rfl
@[simp] theorem State.permAt_told (c : HostCall) (x : Addr) : (s.told c).permAt x = s.permAt x := rfl
@[simp] theorem State.allows_told (c : HostCall) (p : Permission) (x : Addr) : (s.told c).allows p x = s.allows p x := rfl

/-! ### checked -/

@[simp] theorem State.checked_regs (k : Permission) (a : Addr) : (s.checked k a).regs = s.regs := by unfold State.checked; split <;> rfl
@[simp] theorem State.checked_sregs (k : Permission) (a : Addr) : (s.checked k a).sregs = s.sregs := by unfold State.checked; split <;> rfl
@[simp] theorem State.checked_ip (k : Permission) (a : Addr) : (s.checked k a).ip = s.ip := by unfold State.checked; split <;> rfl
@[simp] theorem State.checked_flags (k : Permission) (a : Addr) : (s.checked k a).flags = s.flags := by unfold State.checked; split <;> rfl
@[simp] theorem State.checked_segOverride (k : Permission) (a : Addr) : (s.checked k a).segOverride = s.segOverride := by unfold State.checked; split <;> rfl
@[simp] theorem State.checked_rep (k : Permission) (a : Addr) : (s.checked k a).rep = s.rep := by unfold State.checked; split <;> rfl
@[simp] theorem State.checked_repeatWhile (k : Permission) (a : Addr) : (s.checked k a).repeatWhile = s.repeatWhile := by unfold State.checked; split <;> rfl
@[simp] theorem State.checked_lastPrefixRep (k : Permission) (a : Addr) : (s.checked k a).lastPrefixRep = s.lastPrefixRep := by unfold State.checked; split <;> rfl
@[simp] theorem State.checked_ea (k : Permission) (a : Addr) : (s.checked k a).ea = s.ea := by unfold State.checked; split <;> rfl
@[simp] theorem State.checked_raised (k : Permission) (a : Addr) : (s.checked k a).raised = s.raised := by unfold State.checked; split <;> rfl
@[simp] theorem State.checked_stepBytes (k : Permission) (a : Addr) : (s.checked k a).stepBytes = s.stepBytes := by unfold State.checked; split <;> rfl
@[simp] theorem State.checked_instructionCount (k : Permission) (a : Addr) : (s.checked k a).instructionCount = s.instructionCount := by unfold State.checked; split <;> rfl
@[simp] theorem State.checked_runState (k : Permission) (a : Addr) : (s.checked k a).runState = s.runState := by unfold State.checked; split <;> rfl
@[simp] theorem State.checked_mem (k : Permission) (a : Addr) : (s.checked k a).mem = s.mem := by unfold State.checked; split <;> rfl
@[simp] theorem State.checked_perm (k : Permission) (a : Addr) : (s.checked k a).perm = s.perm := by unfold State.checked; split <;> rfl
@[simp] theorem State.checked_singleStep (k : Permission) (a : Addr) : (s.checked k a).singleStep = s.singleStep := by unfold State.checked; split <;> rfl
@[simp] theorem State.checked_atInterrupt (k : Permission) (a : Addr) : (s.checked k a).atInterrupt = s.atInterrupt := by unfold State.checked; split <;> rfl
@[simp] theorem State.checked_draws (k : Permission) (a : Addr) : (s.checked k a).draws = s.draws := by unfold State.checked; split <;> rfl
@[simp] theorem State.reg_checked (k : Permission) (a : Addr) (x : Reg16) : (s.checked k a).reg x = s.reg x := by simp [State.reg]
@[simp] theorem State.reg8_checked (k : Permission) (a : Addr) (x : Reg8) : (s.checked k a).reg8 x = s.reg8 x := by simp [State.reg8, State.reg]
@[simp] theorem State.sreg_checked (k : Permission) (a : Addr) (x : SReg) : (s.checked k a).sreg x = s.sreg x := by simp [State.sreg]
@[simp] theorem State.flag_checked (k : Permission) (a : Addr) (x : Flag) : (s.checked k a).flag x = s.flag x := by simp [State.flag]
@[simp] theorem State.flags16_checked (k : Permission) (a : Addr) : (s.checked k a).flags16 = s.flags16 := by simp [State.flags16]
@[simp] theorem State.draw_checked (k : Permission) (a : Addr) : (s.checked k a).draw = s.draw := by simp [State.draw]
@[simp] theorem State.peek_checked (k : Permission) (a : Addr) (x : Addr) : (s.checked k a).peek x = s.peek x := by simp [State.peek]
@[simp] theorem State.byteAt_checked (k : Permission) (a : Addr) (sg o : Word) : (s.checked k a).byteAt sg o = s.byteAt sg o := by simp [State.byteAt, State.peek]
@[simp] theorem State.wordAt_checked (k : Permission) (a : Addr) (sg o : Word) : (s.checked k a).wordAt sg o = s.wordAt sg o := by simp [State.wordAt, State.byteAt, State.peek]
@[simp] theorem State.permAt_checked (k : Permission) (a : Addr) (x : Addr) : (s.checked k a).permAt x = s.permAt x := by simp [State.permAt]
@[simp] theorem State.allows_checked (k : Permission) (a : Addr) (p : Permission) (x : Addr) : (s.checked k a).allows p x = s.allows p x := by simp [State.allows, State.permAt]

/-! ### checkedWord -/

@[simp] theorem State.checkedWord_regs (k : Permission) (seg off : Word) : (s.checkedWord k seg off).regs = s.regs := by simp [State.checkedWord]
@[simp] theorem State.checkedWord_sregs (k : Permission) (seg off : Word) : (s.checkedWord k seg off).sregs = s.sregs := by simp [State.checkedWord]
@[simp] theorem State.checkedWord_ip (k : Permission) (seg off : Word) : (s.checkedWord k seg off).ip = s.ip := by simp [State.checkedWord]
@[simp] theorem State.checkedWord_flags (k : Permission) (seg off : Word) : (s.checkedWord k seg off).flags = s.flags := by simp [State.checkedWord]
@[simp] theorem State.checkedWord_segOverride (k : Permission) (seg off : Word) : (s.checkedWord k seg off).segOverride = s.segOverride := by simp [State.checkedWord]
@[simp] theorem State.checkedWord_rep (k : Permission) (seg off : Word) : (s.checkedWord k seg off).rep = s.rep := by simp [State.checkedWord]
@[simp] theorem State.checkedWord_repeatWhile (k : Permission) (seg off : Word) : (s.checkedWord k seg off).repeatWhile = s.repeatWhile := by simp [State.checkedWord]
@[simp] theorem State.checkedWord_lastPrefixRep (k : Permission) (seg off : Word) : (s.checkedWord k seg off).lastPrefixRep = s.lastPrefixRep := by simp [State.checkedWord]
@[simp] theorem State.checkedWord_ea (k : Permission) (seg off : Word) : (s.checkedWord k seg off).ea = s.ea := by simp [State.checkedWord]
@[simp] theorem State.checkedWord_raised (k : Permission) (seg off : Word) : (s.checkedWord k seg off).raised = s.raised := by simp [State.checkedWord]
@[simp] theorem State.checkedWord_stepBytes (k : Permission) (seg off : Word) : (s.checkedWord k seg off).stepBytes = s.stepBytes := by simp [State.checkedWord]
@[simp] theorem State.checkedWord_instructionCount (k : Permission) (seg off : Word) : (s.checkedWord k seg off).instructionCount = s.instructionCount := by simp [State.checkedWord]
@[simp] theorem State.checkedWord_runState (k : Permission) (seg off : Word) : (s.checkedWord k seg off).runState = s.runState := by simp [State.checkedWord]
@[simp] theorem State.checkedWord_mem (k : Permission) (seg off : Word) : (s.checkedWord k seg off).mem = s.mem := by simp [State.checkedWord]
@[simp] theorem State.checkedWord_perm (k : Permission) (seg off : Word) : (s.checkedWord k seg off).perm = s.perm := by simp [State.checkedWord]
@[simp] theorem State.checkedWord_singleStep (k : Permission) (seg off : Word) : (s.checkedWord k seg off).singleStep = s.singleStep := by simp [State.checkedWord]
@[simp] theorem State.checkedWord_atInterrupt (k : Permission) (seg off : Word) : (s.checkedWord k seg off).atInterrupt = s.atInterrupt := by simp [State.checkedWord]
@[simp] theorem State.checkedWord_draws (k : Permission) (seg off : Word) : (s.checkedWord k seg off).draws = s.draws := by simp [State.checkedWord]
@[simp] theorem State.reg_checkedWord (k : Permission) (seg off : Word) (x : Reg16) : (s.checkedWord k seg off).reg x = s.reg x := by simp [State.reg]
@[simp] theorem State.reg8_checkedWord (k : Permission) (seg off : Word) (x : Reg8) : (s.checkedWord k seg off).reg8 x = s.reg8 x := by simp [State.reg8, State.reg]
@[simp] theorem State.sreg_checkedWord (k : Permission) (seg off : Word) (x : SReg) : (s.checkedWord k seg off).sreg x = s.sreg x := by simp [State.sreg]
@[simp] theorem State.flag_checkedWord (k : Permission) (seg off : Word) (x : Flag) : (s.checkedWord k seg off).flag x = s.flag x := by simp [State.flag]
@[simp] theorem State.flags16_checkedWord (k : Permission) (seg off : Word) : (s.checkedWord k seg off).flags16 = s.flags16 := by simp [State.flags16]
@[simp] theorem State.draw_checkedWord (k : Permission) (seg off : Word) : (s.checkedWord k seg off).draw = s.draw := by simp [State.draw]
@[simp] theorem State.peek_checkedWord (k : Permission) (seg off : Word) (x : Addr) : (s.checkedWord k seg off).peek x = s.peek x := by simp [State.peek]
@[simp] theorem State.byteAt_checkedWord (k : Permission) (seg off : Word) (sg o : Word) : (s.checkedWord k seg off).byteAt sg o = s.byteAt sg o := by simp [State.byteAt, State.peek]
@[simp] theorem State.wordAt_checkedWord (k : Permission) (seg off : Word) (sg o : Word) : (s.checkedWord k seg off).wordAt sg o = s.wordAt sg o := by simp [State.wordAt, State.byteAt, State.peek]
@[simp] theorem State.permAt_checkedWord (k : Permission) (seg off : Word) (x : Addr) : (s.checkedWord k seg off).permAt x = s.permAt x := by simp [State.permAt]
@[simp] theorem State.allows_checkedWord (k : Permission) (seg off : Word) (p : Permission) (x : Addr) : (s.checkedWord k seg off).allows p x = s.allows p x := by simp [State.allows, State.permAt]

/-! ### checkedFar -/

@[simp] theorem State.checkedFar_regs (seg off : Word) : (s.checkedFar seg off).regs = s.regs := by simp [State.checkedFar]
@[simp] theorem State.checkedFar_sregs (seg off : Word) : (s.checkedFar seg off).sregs = s.sregs := by simp [State.checkedFar]
@[simp] theorem State.checkedFar_ip (seg off : Word) : (s.checkedFar seg off).ip = s.ip := by simp [State.checkedFar]
@[simp] theorem State.checkedFar_flags (seg off : Word) : (s.checkedFar seg off).flags = s.flags := by simp [State.checkedFar]
@[simp] theorem State.checkedFar_segOverride (seg off : Word) : (s.checkedFar seg off).segOverride = s.segOverride := by simp [State.checkedFar]
@[simp] theorem State.checkedFar_rep (seg off : Word) : (s.checkedFar seg off).rep = s.rep := by simp [State.checkedFar]
@[simp] theorem State.checkedFar_repeatWhile (seg off : Word) : (s.checkedFar seg off).repeatWhile = s.repeatWhile := by simp [State.checkedFar]
@[simp] theorem State.checkedFar_lastPrefixRep (seg off : Word) : (s.checkedFar seg off).lastPrefixRep = s.lastPrefixRep := by simp [State.checkedFar]
@[simp] theorem State.checkedFar_ea (seg off : Word) : (s.checkedFar seg off).ea = s.ea := by simp [State.checkedFar]
@[simp] theorem State.checkedFar_raised (seg off : Word) : (s.checkedFar seg off).raised = s.raised := by simp [State.checkedFar]
@[simp] theorem State.checkedFar_stepBytes (seg off : Word) : (s.checkedFar seg off).stepBytes = s.stepBytes := by simp [State.checkedFar]
@[simp] theorem State.checkedFar_instructionCount (seg off : Word) : (s.checkedFar seg off).instructionCount = s.instructionCount := by simp [State.checkedFar]
@[simp] theorem State.checkedFar_runState (seg off : Word) : (s.checkedFar seg off).runState = s.runState := by simp [State.checkedFar]
@[simp] theorem State.checkedFar_mem (seg off : Word) : (s.checkedFar seg off).mem = s.mem := by simp [State.checkedFar]
@[simp] theorem State.checkedFar_perm (seg off : Word) : (s.checkedFar seg off).perm = s.perm := by simp [State.checkedFar]
@[simp] theorem State.checkedFar_singleStep (seg off : Word) : (s.checkedFar seg off).singleStep = s.singleStep := by simp [State.checkedFar]
@[simp] theorem State.checkedFar_atInterrupt (seg off : Word) : (s.checkedFar seg off).atInterrupt = s.atInterrupt := by simp [State.checkedFar]
@[simp] theorem State.checkedFar_draws (seg off : Word) : (s.checkedFar seg off).draws = s.draws := by simp [State.checkedFar]
@[simp] theorem State.reg_checkedFar (seg off : Word) (x : Reg16) : (s.checkedFar seg off).reg x = s.reg x := by simp [State.reg]
@[simp] theorem State.reg8_checkedFar (seg off : Word) (x : Reg8) : (s.checkedFar seg off).reg8 x = s.reg8 x := by simp [State.reg8, State.reg]
@[simp] theorem State.sreg_checkedFar (seg off : Word) (x : SReg) : (s.checkedFar seg off).sreg x = s.sreg x := by simp [State.sreg]
@[simp] theorem State.flag_checkedFar (seg off : Word) (x : Flag) : (s.checkedFar seg off).flag x = s.flag x := by simp [State.flag]
@[simp] theorem State.flags16_checkedFar (seg off : Word) : (s.checkedFar seg off).flags16 = s.flags16 := by simp [State.flags16]
@[simp] theorem State.draw_checkedFar (seg off : Word) : (s.checkedFar seg off).draw = s.draw := by simp [State.draw]
@[simp] theorem State.peek_checkedFar (seg off : Word) (x : Addr) : (s.checkedFar seg off).peek x = s.peek x := by simp [State.peek]
@[simp] theorem State.byteAt_checkedFar (seg off : Word) (sg o : Word) : (s.checkedFar seg off).byteAt sg o = s.byteAt sg o := by simp [State.byteAt, State.peek]
@[simp] theorem State.wordAt_checkedFar (seg off : Word) (sg o : Word) : (s.checkedFar seg off).wordAt sg o = s.wordAt sg o := by simp [State.wordAt, State.byteAt, State.peek]
@[simp] theorem State.permAt_checkedFar (seg off : Word) (x : Addr) : (s.checkedFar seg off).permAt x = s.permAt x := by simp [State.permAt]
@[simp] theorem State.allows_checkedFar (seg off : Word) (p : Permission) (x : Addr) : (s.checkedFar seg off).allows p x = s.allows p x := by simp [State.allows, State.permAt]

/-! ### storeByte -/

@[simp] theorem State.storeByte_regs (seg off : Word) (v : Byte) : (s.storeByte seg off v).regs = s.regs := by simp [State.storeByte]
@[simp] theorem State.storeByte_sregs (seg off : Word) (v : Byte) : (s.storeByte seg off v).sregs = s.sregs := by simp [State.storeByte]
@[simp] theorem State.storeByte_ip (seg off : Word) (v : Byte) : (s.storeByte seg off v).ip = s.ip := by simp [State.storeByte]
@[simp] theorem State.storeByte_flags (seg off : Word) (v : Byte) : (s.storeByte seg off v).flags = s.flags := by simp [State.storeByte]
@[simp] theorem State.storeByte_segOverride (seg off : Word) (v : Byte) : (s.storeByte seg off v).segOverride = s.segOverride := by simp [State.storeByte]
@[simp] theorem State.storeByte_rep (seg off : Word) (v : Byte) : (s.storeByte seg off v).rep = s.rep := by simp [State.storeByte]
@[simp] theorem State.storeByte_repeatWhile (seg off : Word) (v : Byte) : (s.storeByte seg off v).repeatWhile = s.repeatWhile := by simp [State.storeByte]
@[simp] theorem State.storeByte_lastPrefixRep (seg off : Word) (v : Byte) : (s.storeByte seg off v).lastPrefixRep = s.lastPrefixRep := by simp [State.storeByte]
@[simp] theorem State.storeByte_ea (seg off : Word) (v : Byte) : (s.storeByte seg off v).ea = s.ea := by simp [State.storeByte]
@[simp] theorem State.storeByte_raised (seg off : Word) (v : Byte) : (s.storeByte seg off v).raised = s.raised := by simp [State.storeByte]
@[simp] theorem State.storeByte_stepBytes (seg off : Word) (v : Byte) : (s.storeByte seg off v).stepBytes = s.stepBytes := by simp [State.storeByte]
@[simp] theorem State.storeByte_instructionCount (seg off : Word) (v : Byte) : (s.storeByte seg off v).instructionCount = s.instructionCount := by simp [State.storeByte]
@[simp] theorem State.storeByte_runState (seg off : Word) (v : Byte) : (s.storeByte seg off v).runState = s.runState := by simp [State.storeByte]
@[simp] theorem State.storeByte_perm (seg off : Word) (v : Byte) : (s.storeByte seg off v).perm = s.perm := by simp [State.storeByte]
@[simp] theorem State.storeByte_singleStep (seg off : Word) (v : Byte) : (s.storeByte seg off v).singleStep = s.singleStep := by simp [State.storeByte]
@[simp] theorem State.storeByte_atInterrupt (seg off : Word) (v : Byte) : (s.storeByte seg off v).atInterrupt = s.atInterrupt := by simp [State.storeByte]
@[simp] theorem State.storeByte_draws (seg off : Word) (v : Byte) : (s.storeByte seg off v).draws = s.draws := by simp [State.storeByte]
@[simp] theorem State.reg_storeByte (seg off : Word) (v : Byte) (x : Reg16) : (s.storeByte seg off v).reg x = s.reg x := by simp [State.reg]
@[simp] theorem State.reg8_storeByte (seg off : Word) (v : Byte) (x : Reg8) : (s.storeByte seg off v).reg8 x = s.reg8 x := by simp [State.reg8, State.reg]
@[simp] theorem State.sreg_storeByte (seg off : Word) (v : Byte) (x : SReg) : (s.storeByte seg off v).sreg x = s.sreg x := by simp [State.sreg]
@[simp] theorem State.flag_storeByte (seg off : Word) (v : Byte) (x : Flag) : (s.storeByte seg off v).flag x = s.flag x := by simp [State.flag]
@[simp] theorem State.flags16_storeByte (seg off : Word) (v : Byte) : (s.storeByte seg off v).flags16 = s.flags16 := by simp [State.flags16]
@[simp] theorem State.draw_storeByte (seg off : Word) (v : Byte) : (s.storeByte seg off v).draw = s.draw := by simp [State.draw]
@[simp] theorem State.permAt_storeByte (seg off : Word) (v : Byte) (x : Addr) : (s.storeByte seg off v).permAt x = s.permAt x := by simp [State.permAt]
@[simp] theorem State.allows_storeByte (seg off : Word) (v : Byte) (p : Permission) (x : Addr) : (s.storeByte seg off v).allows p x = s.allows p x := by simp [State.allows, State.permAt]

/-! ### storeWord -/

@[simp] theorem State.storeWord_regs (seg off : Word) (v : Word) : (s.storeWord seg off v).regs = s.regs := by simp [State.storeWord]
@[simp] theorem State.storeWord_sregs (seg off : Word) (v : Word) : (s.storeWord seg off v).sregs = s.sregs := by simp [State.storeWord]
@[simp] theorem State.storeWord_ip (seg off : Word) (v : Word) : (s.storeWord seg off v).ip = s.ip := by simp [State.storeWord]
@[simp] theorem State.storeWord_flags (seg off : Word) (v : Word) : (s.storeWord seg off v).flags = s.flags := by simp [State.storeWord]
@[simp] theorem State.storeWord_segOverride (seg off : Word) (v : Word) : (s.storeWord seg off v).segOverride = s.segOverride := by simp [State.storeWord]
@[simp] theorem State.storeWord_rep (seg off : Word) (v : Word) : (s.storeWord seg off v).rep = s.rep := by simp [State.storeWord]
@[simp] theorem State.storeWord_repeatWhile (seg off : Word) (v : Word) : (s.storeWord seg off v).repeatWhile = s.repeatWhile := by simp [State.storeWord]
@[simp] theorem State.storeWord_lastPrefixRep (seg off : Word) (v : Word) : (s.storeWord seg off v).lastPrefixRep = s.lastPrefixRep := by simp [State.storeWord]
@[simp] theorem State.storeWord_ea (seg off : Word) (v : Word) : (s.storeWord seg off v).ea = s.ea := by simp [State.storeWord]
@[simp] theorem State.storeWord_raised (seg off : Word) (v : Word) : (s.storeWord seg off v).raised = s.raised := by simp [State.storeWord]
@[simp] theorem State.storeWord_stepBytes (seg off : Word) (v : Word) : (s.storeWord seg off v).stepBytes = s.stepBytes := by simp [State.storeWord]
@[simp] theorem State.storeWord_instructionCount (seg off : Word) (v : Word) : (s.storeWord seg off v).instructionCount = s.instructionCount := by simp [State.storeWord]
@[simp] theorem State.storeWord_runState (seg off : Word) (v : Word) : (s.storeWord seg off v).runState = s.runState := by simp [State.storeWord]
@[simp] theorem State.storeWord_perm (seg off : Word) (v : Word) : (s.storeWord seg off v).perm = s.perm := by simp [State.storeWord]
@[simp] theorem State.storeWord_singleStep (seg off : Word) (v : Word) : (s.storeWord seg off v).singleStep = s.singleStep := by simp [State.storeWord]
@[simp] theorem State.storeWord_atInterrupt (seg off : Word) (v : Word) : (s.storeWord seg off v).atInterrupt = s.atInterrupt := by simp [State.storeWord]
@[simp] theorem State.storeWord_draws (seg off : Word) (v : Word) : (s.storeWord seg off v).draws = s.draws := by simp [State.storeWord]
@[simp] theorem State.reg_storeWord (seg off : Word) (v : Word) (x : Reg16) : (s.storeWord seg off v).reg x = s.reg x := by simp [State.reg]
@[simp] theorem State.reg8_storeWord (seg off : Word) (v : Word) (x : Reg8) : (s.storeWord seg off v).reg8 x = s.reg8 x := by simp [State.reg8, State.reg]
@[simp] theorem State.sreg_storeWord (seg off : Word) (v : Word) (x : SReg) : (s.storeWord seg off v).sreg x = s.sreg x := by simp [State.sreg]
@[simp] theorem State.flag_storeWord (seg off : Word) (v : Word) (x : Flag) : (s.storeWord seg off v).flag x = s.flag x := by simp [State.flag]
@[simp] theorem State.flags16_storeWord (seg off : Word) (v : Word) : (s.storeWord seg off v).flags16 = s.flags16 := by simp [State.flags16]
@[simp] theorem State.draw_storeWord (seg off : Word) (v : Word) : (s.storeWord seg off v).draw = s.draw := by simp [State.draw]
@[simp] theorem State.permAt_storeWord (seg off : Word) (v : Word) (x : Addr) : (s.storeWord seg off v).permAt x = s.permAt x := by simp [State.permAt]
@[simp] theorem State.allows_storeWord (seg off : Word) (v : Word) (p : Permission) (x : Addr) : (s.storeWord seg off v).allows p x = s.allows p x := by simp [State.allows, State.permAt]

/-! ### pushed -/

@[simp] theorem State.pushed_sregs (v : Word) : (s.pushed v).sregs = s.sregs := by simp [State.pushed]
@[simp] theorem State.pushed_ip (v : Word) : (s.pushed v).ip = s.ip := by simp [State.pushed]
@[simp] theorem State.pushed_flags (v : Word) : (s.pushed v).flags = s.flags := by simp [State.pushed]
@[simp] theorem State.pushed_segOverride (v : Word) : (s.pushed v).segOverride = s.segOverride := by simp [State.pushed]
@[simp] theorem State.pushed_rep (v : Word) : (s.pushed v).rep = s.rep := by simp [State.pushed]
@[simp] theorem State.pushed_repeatWhile (v : Word) : (s.pushed v).repeatWhile = s.repeatWhile := by simp [State.pushed]
@[simp] theorem State.pushed_lastPrefixRep (v : Word) : (s.pushed v).lastPrefixRep = s.lastPrefixRep := by simp [State.pushed]
@[simp] theorem State.pushed_ea (v : Word) : (s.pushed v).ea = s.ea := by simp [State.pushed]
@[simp] theorem State.pushed_raised (v : Word) : (s.pushed v).raised = s.raised := by simp [State.pushed]
@[simp] theorem State.pushed_stepBytes (v : Word) : (s.pushed v).stepBytes = s.stepBytes := by simp [State.pushed]
@[simp] theorem State.pushed_instructionCount (v : Word) : (s.pushed v).instructionCount = s.instructionCount := by simp [State.pushed]
@[simp] theorem State.pushed_runState (v : Word) : (s.pushed v).runState = s.runState := by simp [State.pushed]
@[simp] theorem State.pushed_perm (v : Word) : (s.pushed v).perm = s.perm := by simp [State.pushed]
@[simp] theorem State.pushed_singleStep (v : Word) : (s.pushed v).singleStep = s.singleStep := by simp [State.pushed]
@[simp] theorem State.pushed_atInterrupt (v : Word) : (s.pushed v).atInterrupt = s.atInterrupt := by simp [State.pushed]
@[simp] theorem State.pushed_draws (v : Word) : (s.pushed v).draws = s.draws := by simp [State.pushed]
@[simp] theorem State.sreg_pushed (v : Word) (x : SReg) : (s.pushed v).sreg x = s.sreg x := by simp [State.sreg]
@[simp] theorem State.flag_pushed (v : Word) (x : Flag) : (s.pushed v).flag x = s.flag x := by simp [State.flag]
@[simp] theorem State.flags16_pushed (v : Word) : (s.pushed v).flags16 = s.flags16 := by simp [State.flags16]
@[simp] theorem State.draw_pushed (v : Word) : (s.pushed v).draw = s.draw := by simp [State.draw]
@[simp] theorem State.permAt_pushed (v : Word) (x : Addr) : (s.pushed v).permAt x = s.permAt x := by simp [State.permAt]
@[simp] theorem State.allows_pushed (v : Word) (p : Permission) (x : Addr) : (s.pushed v).allows p x = s.allows p x := by simp [State.allows, State.permAt]

/-! ### popped -/

@[simp] theorem State.popped_sregs : s.popped.sregs = s.sregs := by simp [State.popped]
@[simp] theorem State.popped_ip : s.popped.ip = s.ip := by simp [State.popped]
@[simp] theorem State.popped_flags : s.popped.flags = s.flags := by simp [State.popped]
@[simp] theorem State.popped_segOverride : s.popped.segOverride = s.segOverride := by simp [State.popped]
@[simp] theorem State.popped_rep : s.popped.rep = s.rep := by simp [State.popped]
@[simp] theorem State.popped_repeatWhile : s.popped.repeatWhile = s.repeatWhile := by simp [State.popped]
@[simp] theorem State.popped_lastPrefixRep : s.popped.lastPrefixRep = s.lastPrefixRep := by simp [State.popped]
@[simp] theorem State.popped_ea : s.popped.ea = s.ea := by simp [State.popped]
@[simp] theorem State.popped_raised : s.popped.raised = s.raised := by simp [State.popped]
@[simp] theorem State.popped_stepBytes : s.popped.stepBytes = s.stepBytes := by simp [State.popped]
@[simp] theorem State.popped_instructionCount : s.popped.instructionCount = s.instructionCount := by simp [State.popped]
@[simp] theorem State.popped_runState : s.popped.runState = s.runState := by simp [State.popped]
@[simp] theorem State.popped_mem : s.popped.mem = s.mem := by simp [State.popped]
@[simp] theorem State.popped_perm : s.popped.perm = s.perm := by simp [State.popped]
@[simp] theorem State.popped_singleStep : s.popped.singleStep = s.singleStep := by simp [State.popped]
@[simp] theorem State.popped_atInterrupt : s.popped.atInterrupt = s.atInterrupt := by simp [State.popped]
@[simp] theorem State.popped_draws : s.popped.draws = s.draws := by simp [State.popped]
@[simp] theorem State.sreg_popped (x : SReg) : s.popped.sreg x = s.sreg x := by simp [State.sreg]
@[simp] theorem State.flag_popped (x : Flag) : s.popped.flag x = s.flag x := by simp [State.flag]
@[simp] theorem State.flags16_popped : s.popped.flags16 = s.flags16 := by simp [State.flags16]
@[simp] theorem State.draw_popped : s.popped.draw = s.draw := by simp [State.draw]
@[simp] theorem State.peek_popped (x : Addr) : s.popped.peek x = s.peek x := by simp [State.peek]
@[simp] theorem State.byteAt_popped (sg o : Word) : s.popped.byteAt sg o = s.byteAt sg o := by simp [State.byteAt, State.peek]
@[simp] theorem State.wordAt_popped (sg o : Word) : s.popped.wordAt sg o = s.wordAt sg o := by simp [State.wordAt, State.byteAt, State.peek]
@[simp] theorem State.permAt_popped (x : Addr) : s.popped.permAt x = s.permAt x := by simp [State.permAt]
@[simp] theorem State.allows_popped (p : Permission) (x : Addr) : s.popped.allows p x = s.allows p x := by simp [State.allows, State.permAt]

end Sys2Proof.Machine
end

