-- ==== Sys2Proof/Laws/Operands.lean ====
section
/-! SUPPORT. What reading and writing an operand E leaves alone: one lemma for each field and accessor. -/

namespace Sys2Proof

open Machine

/-! ### Rm8.seen -/

@[simp] theorem Rm8.seen_regs (e : Rm8) (s : State) : (e.seen s).regs = s.regs := by simp only [Rm8.seen, Loc.seen8]; split <;> simp
@[simp] theorem Rm8.seen_sregs (e : Rm8) (s : State) : (e.seen s).sregs = s.sregs := by simp only [Rm8.seen, Loc.seen8]; split <;> simp
@[simp] theorem Rm8.seen_ip (e : Rm8) (s : State) : (e.seen s).ip = s.ip := by simp only [Rm8.seen, Loc.seen8]; split <;> simp
@[simp] theorem Rm8.seen_flags (e : Rm8) (s : State) : (e.seen s).flags = s.flags := by simp only [Rm8.seen, Loc.seen8]; split <;> simp
@[simp] theorem Rm8.seen_segOverride (e : Rm8) (s : State) : (e.seen s).segOverride = s.segOverride := by simp only [Rm8.seen, Loc.seen8]; split <;> simp
@[simp] theorem Rm8.seen_rep (e : Rm8) (s : State) : (e.seen s).rep = s.rep := by simp only [Rm8.seen, Loc.seen8]; split <;> simp
@[simp] theorem Rm8.seen_repeatWhile (e : Rm8) (s : State) : (e.seen s).repeatWhile = s.repeatWhile := by simp only [Rm8.seen, Loc.seen8]; split <;> simp
@[simp] theorem Rm8.seen_lastPrefixRep (e : Rm8) (s : State) : (e.seen s).lastPrefixRep = s.lastPrefixRep := by simp only [Rm8.seen, Loc.seen8]; split <;> simp
@[simp] theorem Rm8.seen_ea (e : Rm8) (s : State) : (e.seen s).ea = s.ea := by simp only [Rm8.seen, Loc.seen8]; split <;> simp
@[simp] theorem Rm8.seen_raised (e : Rm8) (s : State) : (e.seen s).raised = s.raised := by simp only [Rm8.seen, Loc.seen8]; split <;> simp
@[simp] theorem Rm8.seen_stepBytes (e : Rm8) (s : State) : (e.seen s).stepBytes = s.stepBytes := by simp only [Rm8.seen, Loc.seen8]; split <;> simp
@[simp] theorem Rm8.seen_instructionCount (e : Rm8) (s : State) : (e.seen s).instructionCount = s.instructionCount := by simp only [Rm8.seen, Loc.seen8]; split <;> simp
@[simp] theorem Rm8.seen_runState (e : Rm8) (s : State) : (e.seen s).runState = s.runState := by simp only [Rm8.seen, Loc.seen8]; split <;> simp
@[simp] theorem Rm8.seen_mem (e : Rm8) (s : State) : (e.seen s).mem = s.mem := by simp only [Rm8.seen, Loc.seen8]; split <;> simp
@[simp] theorem Rm8.seen_perm (e : Rm8) (s : State) : (e.seen s).perm = s.perm := by simp only [Rm8.seen, Loc.seen8]; split <;> simp
@[simp] theorem Rm8.seen_singleStep (e : Rm8) (s : State) : (e.seen s).singleStep = s.singleStep := by simp only [Rm8.seen, Loc.seen8]; split <;> simp
@[simp] theorem Rm8.seen_atInterrupt (e : Rm8) (s : State) : (e.seen s).atInterrupt = s.atInterrupt := by simp only [Rm8.seen, Loc.seen8]; split <;> simp
@[simp] theorem Rm8.seen_draws (e : Rm8) (s : State) : (e.seen s).draws = s.draws := by simp only [Rm8.seen, Loc.seen8]; split <;> simp
@[simp] theorem Rm8.reg_seen (e : Rm8) (s : State) (x : Reg16) : (e.seen s).reg x = s.reg x := by simp [State.reg]
@[simp] theorem Rm8.reg8_seen (e : Rm8) (s : State) (x : Reg8) : (e.seen s).reg8 x = s.reg8 x := by simp [State.reg8, State.reg]
@[simp] theorem Rm8.sreg_seen (e : Rm8) (s : State) (x : SReg) : (e.seen s).sreg x = s.sreg x := by simp [State.sreg]
@[simp] theorem Rm8.flag_seen (e : Rm8) (s : State) (x : Flag) : (e.seen s).flag x = s.flag x := by simp [State.flag]
@[simp] theorem Rm8.flags16_seen (e : Rm8) (s : State) : (e.seen s).flags16 = s.flags16 := by simp [State.flags16]
@[simp] theorem Rm8.draw_seen (e : Rm8) (s : State) : (e.seen s).draw = s.draw := by simp [State.draw]
@[simp] theorem Rm8.peek_seen (e : Rm8) (s : State) (x : Addr) : (e.seen s).peek x = s.peek x := by simp [State.peek]
@[simp] theorem Rm8.byteAt_seen (e : Rm8) (s : State) (sg o : Word) : (e.seen s).byteAt sg o = s.byteAt sg o := by simp [State.byteAt, State.peek]
@[simp] theorem Rm8.wordAt_seen (e : Rm8) (s : State) (sg o : Word) : (e.seen s).wordAt sg o = s.wordAt sg o := by simp [State.wordAt, State.byteAt, State.peek]
@[simp] theorem Rm8.permAt_seen (e : Rm8) (s : State) (x : Addr) : (e.seen s).permAt x = s.permAt x := by simp [State.permAt]
@[simp] theorem Rm8.allows_seen (e : Rm8) (s : State) (p : Permission) (x : Addr) : (e.seen s).allows p x = s.allows p x := by simp [State.allows, State.permAt]

/-! ### Rm16.seen -/

@[simp] theorem Rm16.seen_regs (e : Rm16) (s : State) : (e.seen s).regs = s.regs := by simp only [Rm16.seen, Loc.seen16]; split <;> simp
@[simp] theorem Rm16.seen_sregs (e : Rm16) (s : State) : (e.seen s).sregs = s.sregs := by simp only [Rm16.seen, Loc.seen16]; split <;> simp
@[simp] theorem Rm16.seen_ip (e : Rm16) (s : State) : (e.seen s).ip = s.ip := by simp only [Rm16.seen, Loc.seen16]; split <;> simp
@[simp] theorem Rm16.seen_flags (e : Rm16) (s : State) : (e.seen s).flags = s.flags := by simp only [Rm16.seen, Loc.seen16]; split <;> simp
@[simp] theorem Rm16.seen_segOverride (e : Rm16) (s : State) : (e.seen s).segOverride = s.segOverride := by simp only [Rm16.seen, Loc.seen16]; split <;> simp
@[simp] theorem Rm16.seen_rep (e : Rm16) (s : State) : (e.seen s).rep = s.rep := by simp only [Rm16.seen, Loc.seen16]; split <;> simp
@[simp] theorem Rm16.seen_repeatWhile (e : Rm16) (s : State) : (e.seen s).repeatWhile = s.repeatWhile := by simp only [Rm16.seen, Loc.seen16]; split <;> simp
@[simp] theorem Rm16.seen_lastPrefixRep (e : Rm16) (s : State) : (e.seen s).lastPrefixRep = s.lastPrefixRep := by simp only [Rm16.seen, Loc.seen16]; split <;> simp
@[simp] theorem Rm16.seen_ea (e : Rm16) (s : State) : (e.seen s).ea = s.ea := by simp only [Rm16.seen, Loc.seen16]; split <;> simp
@[simp] theorem Rm16.seen_raised (e : Rm16) (s : State) : (e.seen s).raised = s.raised := by simp only [Rm16.seen, Loc.seen16]; split <;> simp
@[simp] theorem Rm16.seen_stepBytes (e : Rm16) (s : State) : (e.seen s).stepBytes = s.stepBytes := by simp only [Rm16.seen, Loc.seen16]; split <;> simp
@[simp] theorem Rm16.seen_instructionCount (e : Rm16) (s : State) : (e.seen s).instructionCount = s.instructionCount := by simp only [Rm16.seen, Loc.seen16]; split <;> simp
@[simp] theorem Rm16.seen_runState (e : Rm16) (s : State) : (e.seen s).runState = s.runState := by simp only [Rm16.seen, Loc.seen16]; split <;> simp
@[simp] theorem Rm16.seen_mem (e : Rm16) (s : State) : (e.seen s).mem = s.mem := by simp only [Rm16.seen, Loc.seen16]; split <;> simp
@[simp] theorem Rm16.seen_perm (e : Rm16) (s : State) : (e.seen s).perm = s.perm := by simp only [Rm16.seen, Loc.seen16]; split <;> simp
@[simp] theorem Rm16.seen_singleStep (e : Rm16) (s : State) : (e.seen s).singleStep = s.singleStep := by simp only [Rm16.seen, Loc.seen16]; split <;> simp
@[simp] theorem Rm16.seen_atInterrupt (e : Rm16) (s : State) : (e.seen s).atInterrupt = s.atInterrupt := by simp only [Rm16.seen, Loc.seen16]; split <;> simp
@[simp] theorem Rm16.seen_draws (e : Rm16) (s : State) : (e.seen s).draws = s.draws := by simp only [Rm16.seen, Loc.seen16]; split <;> simp
@[simp] theorem Rm16.reg_seen (e : Rm16) (s : State) (x : Reg16) : (e.seen s).reg x = s.reg x := by simp [State.reg]
@[simp] theorem Rm16.reg8_seen (e : Rm16) (s : State) (x : Reg8) : (e.seen s).reg8 x = s.reg8 x := by simp [State.reg8, State.reg]
@[simp] theorem Rm16.sreg_seen (e : Rm16) (s : State) (x : SReg) : (e.seen s).sreg x = s.sreg x := by simp [State.sreg]
@[simp] theorem Rm16.flag_seen (e : Rm16) (s : State) (x : Flag) : (e.seen s).flag x = s.flag x := by simp [State.flag]
@[simp] theorem Rm16.flags16_seen (e : Rm16) (s : State) : (e.seen s).flags16 = s.flags16 := by simp [State.flags16]
@[simp] theorem Rm16.draw_seen (e : Rm16) (s : State) : (e.seen s).draw = s.draw := by simp [State.draw]
@[simp] theorem Rm16.peek_seen (e : Rm16) (s : State) (x : Addr) : (e.seen s).peek x = s.peek x := by simp [State.peek]
@[simp] theorem Rm16.byteAt_seen (e : Rm16) (s : State) (sg o : Word) : (e.seen s).byteAt sg o = s.byteAt sg o := by simp [State.byteAt, State.peek]
@[simp] theorem Rm16.wordAt_seen (e : Rm16) (s : State) (sg o : Word) : (e.seen s).wordAt sg o = s.wordAt sg o := by simp [State.wordAt, State.byteAt, State.peek]
@[simp] theorem Rm16.permAt_seen (e : Rm16) (s : State) (x : Addr) : (e.seen s).permAt x = s.permAt x := by simp [State.permAt]
@[simp] theorem Rm16.allows_seen (e : Rm16) (s : State) (p : Permission) (x : Addr) : (e.seen s).allows p x = s.allows p x := by simp [State.allows, State.permAt]

/-! ### MemOp.farSeen -/

@[simp] theorem MemOp.farSeen_regs (e : MemOp) (s : State) : (e.farSeen s).regs = s.regs := by simp [MemOp.farSeen]
@[simp] theorem MemOp.farSeen_sregs (e : MemOp) (s : State) : (e.farSeen s).sregs = s.sregs := by simp [MemOp.farSeen]
@[simp] theorem MemOp.farSeen_ip (e : MemOp) (s : State) : (e.farSeen s).ip = s.ip := by simp [MemOp.farSeen]
@[simp] theorem MemOp.farSeen_flags (e : MemOp) (s : State) : (e.farSeen s).flags = s.flags := by simp [MemOp.farSeen]
@[simp] theorem MemOp.farSeen_segOverride (e : MemOp) (s : State) : (e.farSeen s).segOverride = s.segOverride := by simp [MemOp.farSeen]
@[simp] theorem MemOp.farSeen_rep (e : MemOp) (s : State) : (e.farSeen s).rep = s.rep := by simp [MemOp.farSeen]
@[simp] theorem MemOp.farSeen_repeatWhile (e : MemOp) (s : State) : (e.farSeen s).repeatWhile = s.repeatWhile := by simp [MemOp.farSeen]
@[simp] theorem MemOp.farSeen_lastPrefixRep (e : MemOp) (s : State) : (e.farSeen s).lastPrefixRep = s.lastPrefixRep := by simp [MemOp.farSeen]
@[simp] theorem MemOp.farSeen_ea (e : MemOp) (s : State) : (e.farSeen s).ea = s.ea := by simp [MemOp.farSeen]
@[simp] theorem MemOp.farSeen_raised (e : MemOp) (s : State) : (e.farSeen s).raised = s.raised := by simp [MemOp.farSeen]
@[simp] theorem MemOp.farSeen_stepBytes (e : MemOp) (s : State) : (e.farSeen s).stepBytes = s.stepBytes := by simp [MemOp.farSeen]
@[simp] theorem MemOp.farSeen_instructionCount (e : MemOp) (s : State) : (e.farSeen s).instructionCount = s.instructionCount := by simp [MemOp.farSeen]
@[simp] theorem MemOp.farSeen_runState (e : MemOp) (s : State) : (e.farSeen s).runState = s.runState := by simp [MemOp.farSeen]
@[simp] theorem MemOp.farSeen_mem (e : MemOp) (s : State) : (e.farSeen s).mem = s.mem := by simp [MemOp.farSeen]
@[simp] theorem MemOp.farSeen_perm (e : MemOp) (s : State) : (e.farSeen s).perm = s.perm := by simp [MemOp.farSeen]
@[simp] theorem MemOp.farSeen_singleStep (e : MemOp) (s : State) : (e.farSeen s).singleStep = s.singleStep := by simp [MemOp.farSeen]
@[simp] theorem MemOp.farSeen_atInterrupt (e : MemOp) (s : State) : (e.farSeen s).atInterrupt = s.atInterrupt := by simp [MemOp.farSeen]
@[simp] theorem MemOp.farSeen_draws (e : MemOp) (s : State) : (e.farSeen s).draws = s.draws := by simp [MemOp.farSeen]
@[simp] theorem MemOp.reg_farSeen (e : MemOp) (s : State) (x : Reg16) : (e.farSeen s).reg x = s.reg x := by simp [State.reg]
@[simp] theorem MemOp.reg8_farSeen (e : MemOp) (s : State) (x : Reg8) : (e.farSeen s).reg8 x = s.reg8 x := by simp [State.reg8, State.reg]
@[simp] theorem MemOp.sreg_farSeen (e : MemOp) (s : State) (x : SReg) : (e.farSeen s).sreg x = s.sreg x := by simp [State.sreg]
@[simp] theorem MemOp.flag_farSeen (e : MemOp) (s : State) (x : Flag) : (e.farSeen s).flag x = s.flag x := by simp [State.flag]
@[simp] theorem MemOp.flags16_farSeen (e : MemOp) (s : State) : (e.farSeen s).flags16 = s.flags16 := by simp [State.flags16]
@[simp] theorem MemOp.draw_farSeen (e : MemOp) (s : State) : (e.farSeen s).draw = s.draw := by simp [State.draw]
@[simp] theorem MemOp.peek_farSeen (e : MemOp) (s : State) (x : Addr) : (e.farSeen s).peek x = s.peek x := by simp [State.peek]
@[simp] theorem MemOp.byteAt_farSeen (e : MemOp) (s : State) (sg o : Word) : (e.farSeen s).byteAt sg o = s.byteAt sg o := by simp [State.byteAt, State.peek]
@[simp] theorem MemOp.wordAt_farSeen (e : MemOp) (s : State) (sg o : Word) : (e.farSeen s).wordAt sg o = s.wordAt sg o := by simp [State.wordAt, State.byteAt, State.peek]
@[simp] theorem MemOp.permAt_farSeen (e : MemOp) (s : State) (x : Addr) : (e.farSeen s).permAt x = s.permAt x := by simp [State.permAt]
@[simp] theorem MemOp.allows_farSeen (e : MemOp) (s : State) (p : Permission) (x : Addr) : (e.farSeen s).allows p x = s.allows p x := by simp [State.allows, State.permAt]

/-! ### Rm8.stored -/

@[simp] theorem Rm8.stored_sregs (e : Rm8) (s : State) (v : Byte) (t : State) : (e.stored s v t).sregs = t.sregs := by simp only [Rm8.stored, Loc.put8]; split <;> simp
@[simp] theorem Rm8.stored_ip (e : Rm8) (s : State) (v : Byte) (t : State) : (e.stored s v t).ip = t.ip := by simp only [Rm8.stored, Loc.put8]; split <;> simp
@[simp] theorem Rm8.stored_flags (e : Rm8) (s : State) (v : Byte) (t : State) : (e.stored s v t).flags = t.flags := by simp only [Rm8.stored, Loc.put8]; split <;> simp
@[simp] theorem Rm8.stored_segOverride (e : Rm8) (s : State) (v : Byte) (t : State) : (e.stored s v t).segOverride = t.segOverride := by simp only [Rm8.stored, Loc.put8]; split <;> simp
@[simp] theorem Rm8.stored_rep (e : Rm8) (s : State) (v : Byte) (t : State) : (e.stored s v t).rep = t.rep := by simp only [Rm8.stored, Loc.put8]; split <;> simp
@[simp] theorem Rm8.stored_repeatWhile (e : Rm8) (s : State) (v : Byte) (t : State) : (e.stored s v t).repeatWhile = t.repeatWhile := by simp only [Rm8.stored, Loc.put8]; split <;> simp
@[simp] theorem Rm8.stored_lastPrefixRep (e : Rm8) (s : State) (v : Byte) (t : State) : (e.stored s v t).lastPrefixRep = t.lastPrefixRep := by simp only [Rm8.stored, Loc.put8]; split <;> simp
@[simp] theorem Rm8.stored_ea (e : Rm8) (s : State) (v : Byte) (t : State) : (e.stored s v t).ea = t.ea := by simp only [Rm8.stored, Loc.put8]; split <;> simp
@[simp] theorem Rm8.stored_raised (e : Rm8) (s : State) (v : Byte) (t : State) : (e.stored s v t).raised = t.raised := by simp only [Rm8.stored, Loc.put8]; split <;> simp
@[simp] theorem Rm8.stored_stepBytes (e : Rm8) (s : State) (v : Byte) (t : State) : (e.stored s v t).stepBytes = t.stepBytes := by simp only [Rm8.stored, Loc.put8]; split <;> simp
@[simp] theorem Rm8.stored_instructionCount (e : Rm8) (s : State) (v : Byte) (t : State) : (e.stored s v t).instructionCount = t.instructionCount := by simp only [Rm8.stored, Loc.put8]; split <;> simp
@[simp] theorem Rm8.stored_runState (e : Rm8) (s : State) (v : Byte) (t : State) : (e.stored s v t).runState = t.runState := by simp only [Rm8.stored, Loc.put8]; split <;> simp
@[simp] theorem Rm8.stored_perm (e : Rm8) (s : State) (v : Byte) (t : State) : (e.stored s v t).perm = t.perm := by simp only [Rm8.stored, Loc.put8]; split <;> simp
@[simp] theorem Rm8.stored_singleStep (e : Rm8) (s : State) (v : Byte) (t : State) : (e.stored s v t).singleStep = t.singleStep := by simp only [Rm8.stored, Loc.put8]; split <;> simp
@[simp] theorem Rm8.stored_atInterrupt (e : Rm8) (s : State) (v : Byte) (t : State) : (e.stored s v t).atInterrupt = t.atInterrupt := by simp only [Rm8.stored, Loc.put8]; split <;> simp
@[simp] theorem Rm8.stored_draws (e : Rm8) (s : State) (v : Byte) (t : State) : (e.stored s v t).draws = t.draws := by simp only [Rm8.stored, Loc.put8]; split <;> simp
@[simp] theorem Rm8.sreg_stored (e : Rm8) (s : State) (v : Byte) (t : State) (x : SReg) : (e.stored s v t).sreg x = t.sreg x := by simp [State.sreg]
@[simp] theorem Rm8.flag_stored (e : Rm8) (s : State) (v : Byte) (t : State) (x : Flag) : (e.stored s v t).flag x = t.flag x := by simp [State.flag]
@[simp] theorem Rm8.flags16_stored (e : Rm8) (s : State) (v : Byte) (t : State) : (e.stored s v t).flags16 = t.flags16 := by simp [State.flags16]
@[simp] theorem Rm8.draw_stored (e : Rm8) (s : State) (v : Byte) (t : State) : (e.stored s v t).draw = t.draw := by simp [State.draw]
@[simp] theorem Rm8.permAt_stored (e : Rm8) (s : State) (v : Byte) (t : State) (x : Addr) : (e.stored s v t).permAt x = t.permAt x := by simp [State.permAt]
@[simp] theorem Rm8.allows_stored (e : Rm8) (s : State) (v : Byte) (t : State) (p : Permission) (x : Addr) : (e.stored s v t).allows p x = t.allows p x := by simp [State.allows, State.permAt]

/-! ### Rm16.stored -/

@[simp] theorem Rm16.stored_sregs (e : Rm16) (s : State) (v : Word) (t : State) : (e.stored s v t).sregs = t.sregs := by simp only [Rm16.stored, Loc.put16]; split <;> simp
@[simp] theorem Rm16.stored_ip (e : Rm16) (s : State) (v : Word) (t : State) : (e.stored s v t).ip = t.ip := by simp only [Rm16.stored, Loc.put16]; split <;> simp
@[simp] theorem Rm16.stored_flags (e : Rm16) (s : State) (v : Word) (t : State) : (e.stored s v t).flags = t.flags := by simp only [Rm16.stored, Loc.put16]; split <;> simp
@[simp] theorem Rm16.stored_segOverride (e : Rm16) (s : State) (v : Word) (t : State) : (e.stored s v t).segOverride = t.segOverride := by simp only [Rm16.stored, Loc.put16]; split <;> simp
@[simp] theorem Rm16.stored_rep (e : Rm16) (s : State) (v : Word) (t : State) : (e.stored s v t).rep = t.rep := by simp only [Rm16.stored, Loc.put16]; split <;> simp
@[simp] theorem Rm16.stored_repeatWhile (e : Rm16) (s : State) (v : Word) (t : State) : (e.stored s v t).repeatWhile = t.repeatWhile := by simp only [Rm16.stored, Loc.put16]; split <;> simp
@[simp] theorem Rm16.stored_lastPrefixRep (e : Rm16) (s : State) (v : Word) (t : State) : (e.stored s v t).lastPrefixRep = t.lastPrefixRep := by simp only [Rm16.stored, Loc.put16]; split <;> simp
@[simp] theorem Rm16.stored_ea (e : Rm16) (s : State) (v : Word) (t : State) : (e.stored s v t).ea = t.ea := by simp only [Rm16.stored, Loc.put16]; split <;> simp
@[simp] theorem Rm16.stored_raised (e : Rm16) (s : State) (v : Word) (t : State) : (e.stored s v t).raised = t.raised := by simp only [Rm16.stored, Loc.put16]; split <;> simp
@[simp] theorem Rm16.stored_stepBytes (e : Rm16) (s : State) (v : Word) (t : State) : (e.stored s v t).stepBytes = t.stepBytes := by simp only [Rm16.stored, Loc.put16]; split <;> simp
@[simp] theorem Rm16.stored_instructionCount (e : Rm16) (s : State) (v : Word) (t : State) : (e.stored s v t).instructionCount = t.instructionCount := by simp only [Rm16.stored, Loc.put16]; split <;> simp
@[simp] theorem Rm16.stored_runState (e : Rm16) (s : State) (v : Word) (t : State) : (e.stored s v t).runState = t.runState := by simp only [Rm16.stored, Loc.put16]; split <;> simp
@[simp] theorem Rm16.stored_perm (e : Rm16) (s : State) (v : Word) (t : State) : (e.stored s v t).perm = t.perm := by simp only [Rm16.stored, Loc.put16]; split <;> simp
@[simp] theorem Rm16.stored_singleStep (e : Rm16) (s : State) (v : Word) (t : State) : (e.stored s v t).singleStep = t.singleStep := by simp only [Rm16.stored, Loc.put16]; split <;> simp
@[simp] theorem Rm16.stored_atInterrupt (e : Rm16) (s : State) (v : Word) (t : State) : (e.stored s v t).atInterrupt = t.atInterrupt := by simp only [Rm16.stored, Loc.put16]; split <;> simp
@[simp] theorem Rm16.stored_draws (e : Rm16) (s : State) (v : Word) (t : State) : (e.stored s v t).draws = t.draws := by simp only [Rm16.stored, Loc.put16]; split <;> simp
@[simp] theorem Rm16.sreg_stored (e : Rm16) (s : State) (v : Word) (t : State) (x : SReg) : (e.stored s v t).sreg x = t.sreg x := by simp [State.sreg]
@[simp] theorem Rm16.flag_stored (e : Rm16) (s : State) (v : Word) (t : State) (x : Flag) : (e.stored s v t).flag x = t.flag x := by simp [State.flag]
@[simp] theorem Rm16.flags16_stored (e : Rm16) (s : State) (v : Word) (t : State) : (e.stored s v t).flags16 = t.flags16 := by simp [State.flags16]
@[simp] theorem Rm16.draw_stored (e : Rm16) (s : State) (v : Word) (t : State) : (e.stored s v t).draw = t.draw := by simp [State.draw]
@[simp] theorem Rm16.permAt_stored (e : Rm16) (s : State) (v : Word) (t : State) (x : Addr) : (e.stored s v t).permAt x = t.permAt x := by simp [State.permAt]
@[simp] theorem Rm16.allows_stored (e : Rm16) (s : State) (v : Word) (t : State) (p : Permission) (x : Addr) : (e.stored s v t).allows p x = t.allows p x := by simp [State.allows, State.permAt]

end Sys2Proof
end

