-- ==== Sys2Proof/Laws/Flags.lean ====
section
/-! SUPPORT. Reading a flag after writing one, the reserved bits, and what each flag computation leaves in each flag (10_state.md R40-R42;
42_arithmetic.md R300-R303; 44_logic_shift.md R390, R408). -/

namespace Sys2Proof.Machine

theorem Flag.bit_lt (f : Flag) : f.bit < 16 := by cases f <;> decide

theorem Flag.bit_inj {f g : Flag} : f.bit = g.bit ↔ f = g := by cases f <;> cases g <;> decide

/-- Every bit of FLAGS after a single-flag write. -/
theorem getLsbD_putFlag (f : Flag) (b : Bool) (v : Word) (i : Nat) :
    (putFlag f b v).getLsbD i = if i = f.bit then b else v.getLsbD i := by
  have hb := f.bit_lt
  by_cases hi : i < 16
  · have h1 : (1#16).getLsbD (i - f.bit) = decide (i - f.bit = 0) := by
      rw [BitVec.getLsbD_one]; simp
    unfold putFlag
    split <;> rename_i hbv
    · simp only [BitVec.getLsbD_or, BitVec.getLsbD_shiftLeft, h1, hi, hbv]
      by_cases h : i = f.bit
      · simp [h]
      · simp only [h, if_false, decide_true, Bool.true_and]
        have : ¬ (¬ i < f.bit ∧ i - f.bit = 0) := by omega
        by_cases h2 : i < f.bit
        · simp [h2]
        · have : i - f.bit ≠ 0 := by omega
          simp [this]
    · simp only [BitVec.getLsbD_and, BitVec.getLsbD_not, BitVec.getLsbD_shiftLeft, h1, hi]
      by_cases h : i = f.bit
      · simp [h, hbv]
      · simp only [h, if_false, decide_true, Bool.true_and]
        by_cases h2 : i < f.bit
        · simp [h2]
        · have : i - f.bit ≠ 0 := by omega
          simp [this]
  · have hne : i ≠ f.bit := by omega
    simp [hne, BitVec.getLsbD_of_ge _ _ (Nat.le_of_not_lt hi)]

/-- A flag after a single-flag write (10_state.md R40). -/
theorem getFlag_putFlag (f g : Flag) (b : Bool) (v : Word) :
    getFlag g (putFlag f b v) = if g = f then b else getFlag g v := by
  simp only [getFlag, getLsbD_putFlag, Flag.bit_inj]

@[simp] theorem getFlag_putFlag_self (f : Flag) (b : Bool) (v : Word) : getFlag f (putFlag f b v) = b := by
  simp [getFlag_putFlag]

@[simp] theorem getFlag_putFlag_ne {f g : Flag} (b : Bool) (v : Word) (h : g ≠ f) :
    getFlag g (putFlag f b v) = getFlag g v := by
  simp [getFlag_putFlag, h]

theorem State.flag_setFlag (s : State) (f g : Flag) (b : Bool) :
    (s.setFlag f b).flag g = if g = f then b else s.flag g := getFlag_putFlag f g b s.flags

@[simp] theorem State.flag_setFlag_self (s : State) (f : Flag) (b : Bool) : (s.setFlag f b).flag f = b := by
  simp [State.flag_setFlag]

@[simp] theorem State.flag_setFlag_ne (s : State) {f g : Flag} (b : Bool) (h : g ≠ f) :
    (s.setFlag f b).flag g = s.flag g := by
  simp [State.flag_setFlag, h]

@[simp] theorem State.flag_mapFlags (s : State) (g : Word → Word) (f : Flag) :
    (s.mapFlags g).flag f = getFlag f (g s.flags) := rfl

@[simp] theorem State.flags_mapFlags (s : State) (g : Word → Word) : (s.mapFlags g).flags = g s.flags := rfl

@[simp] theorem State.flags_setFlag (s : State) (f : Flag) (b : Bool) :
    (s.setFlag f b).flags = putFlag f b s.flags := rfl

@[simp] theorem State.flags_setFlags16 (s : State) (v : Word) : (s.setFlags16 v).flags = maskFlags v := rfl

/-! ### The reserved bits (10_state.md R40) -/

/-- Every bit of a word after the masking of `setValue16`: a flag's bit stays, bits 3 and 5 read 0, the other reserved bits 1. -/
theorem getLsbD_maskFlags (v : Word) (i : Nat) :
    (maskFlags v).getLsbD i = ((v.getLsbD i && (0x0FD5#16).getLsbD i) || (0xF002#16).getLsbD i) := by
  simp [maskFlags]

theorem maskFlags_maskFlags (v : Word) : maskFlags (maskFlags v) = maskFlags v := by
  apply BitVec.eq_of_getLsbD_eq
  intro i hi
  have h : ∀ i < 16, ((0xF002#16).getLsbD i && (0x0FD5#16).getLsbD i) = false := by decide
  have := h i hi
  simp only [getLsbD_maskFlags]
  revert this
  cases v.getLsbD i <;> cases (0xF002#16).getLsbD i <;> cases (0x0FD5#16).getLsbD i <;> simp

theorem Flag.bit_settable (f : Flag) : (0x0FD5#16).getLsbD f.bit = true ∧ (0xF002#16).getLsbD f.bit = false := by
  cases f <;> decide

@[simp] theorem getFlag_maskFlags (f : Flag) (v : Word) : getFlag f (maskFlags v) = getFlag f v := by
  simp [getFlag, getLsbD_maskFlags, f.bit_settable]

/-- A single-flag write keeps the reserved bits. -/
theorem maskFlags_putFlag {v : Word} (f : Flag) (b : Bool) (h : maskFlags v = v) :
    maskFlags (putFlag f b v) = putFlag f b v := by
  apply BitVec.eq_of_getLsbD_eq
  intro i _
  rw [getLsbD_maskFlags, getLsbD_putFlag]
  by_cases hi : i = f.bit
  · subst hi; simp [f.bit_settable]
  · rw [if_neg hi, ← getLsbD_maskFlags, h]

/-! ### The flag computations as single-flag writes -/

theorem maskFlags_putSZP {w : Nat} (r : BitVec w) {v : Word} (h : maskFlags v = v) : maskFlags (putSZP r v) = putSZP r v :=
  maskFlags_putFlag _ _ (maskFlags_putFlag _ _ (maskFlags_putFlag _ _ h))

theorem maskFlags_addFlags {w : Nat} (a b : BitVec w) (c : Bool) {v : Word} (h : maskFlags v = v) :
    maskFlags (addFlags a b c v) = addFlags a b c v :=
  maskFlags_putSZP _ (maskFlags_putFlag _ _ (maskFlags_putFlag _ _ (maskFlags_putFlag _ _ h)))

theorem maskFlags_subFlags {w : Nat} (a b : BitVec w) (c : Bool) {v : Word} (h : maskFlags v = v) :
    maskFlags (subFlags a b c v) = subFlags a b c v :=
  maskFlags_putSZP _ (maskFlags_putFlag _ _ (maskFlags_putFlag _ _ (maskFlags_putFlag _ _ h)))

theorem maskFlags_clearStatus {v : Word} (h : maskFlags v = v) : maskFlags (clearStatus v) = clearStatus v := by
  unfold clearStatus
  repeat apply maskFlags_putFlag
  exact h

theorem maskFlags_shiftSteps {w : Nat} (op : ShiftOp) (n : Nat) (p : BitVec w × Word) (h : maskFlags p.2 = p.2) :
    maskFlags (shiftSteps op n p).2 = (shiftSteps op n p).2 := by
  induction n generalizing p with
  | zero => exact h
  | succ n ih => exact ih _ (maskFlags_putFlag _ _ (maskFlags_putFlag _ _ h))

/-- The result flags, flag by flag (42_arithmetic.md R301). -/
theorem getFlag_putSZP {w : Nat} (r : BitVec w) (v : Word) (f : Flag) :
    getFlag f (putSZP r v) =
      match f with
      | .SF => r.msb
      | .ZF => r == 0
      | .PF => parity8 (r.setWidth 8)
      | f => getFlag f v := by
  cases f <;> simp [putSZP]

/-- The flags of an addition, flag by flag (42_arithmetic.md R302). -/
theorem getFlag_addFlags {w : Nat} (a b : BitVec w) (c : Bool) (v : Word) (f : Flag) :
    getFlag f (addFlags a b c v) =
      match f with
      | .CF => decide (2 ^ w ≤ a.toNat + b.toNat + c.toNat)
      | .AF => (a ^^^ b ^^^ addResult a b c).getLsbD 4
      | .OF => a.msb == b.msb && (addResult a b c).msb != a.msb
      | .SF => (addResult a b c).msb
      | .ZF => addResult a b c == 0
      | .PF => parity8 ((addResult a b c).setWidth 8)
      | f => getFlag f v := by
  cases f <;> simp [addFlags, getFlag_putSZP]

/-- The flags of a subtraction, flag by flag (42_arithmetic.md R303). -/
theorem getFlag_subFlags {w : Nat} (a b : BitVec w) (c : Bool) (v : Word) (f : Flag) :
    getFlag f (subFlags a b c v) =
      match f with
      | .CF => decide ((a.toNat : Int) - b.toNat - c.toNat < 0)
      | .AF => (a ^^^ b ^^^ subResult a b c).getLsbD 4
      | .OF => a.msb != b.msb && (subResult a b c).msb != a.msb
      | .SF => (subResult a b c).msb
      | .ZF => subResult a b c == 0
      | .PF => parity8 ((subResult a b c).setWidth 8)
      | f => getFlag f v := by
  cases f <;> simp [subFlags, getFlag_putSZP]

/-- DIV and IDIV clear the status flags and no other (42_arithmetic.md R322). -/
theorem getFlag_clearStatus (v : Word) (f : Flag) :
    getFlag f (clearStatus v) = (getFlag f v && decide (f ∈ [Flag.TF, .IF, .DF])) := by
  cases f <;> simp [clearStatus]

/-- A shift or rotate writes CF and OF only (44_logic_shift.md R400). -/
theorem getFlag_shiftSteps {w : Nat} (op : ShiftOp) (n : Nat) (p : BitVec w × Word) (f : Flag) (h1 : f ≠ .CF) (h2 : f ≠ .OF) :
    getFlag f (shiftSteps op n p).2 = getFlag f p.2 := by
  induction n generalizing p with
  | zero => rfl
  | succ n ih => rw [shiftSteps, ih]; simp [shiftStep, h1, h2]

/-! ### Draws (00_scope.md R16) -/

theorem State.flag_freeFlag (s : State) (f g : Flag) :
    (s.freeFlag f).flag g = if g = f then Config.freeBit s.draws else s.flag g := by
  show (s.setFlag f s.draw).flag g = _
  rw [State.flag_setFlag]; rfl

@[simp] theorem State.flags_freeFlag (s : State) (f : Flag) : (s.freeFlag f).flags = putFlag f (Config.freeBit s.draws) s.flags := rfl

@[simp] theorem State.draws_freeFlag (s : State) (f : Flag) : (s.freeFlag f).draws = s.draws + 1 := rfl

@[simp] theorem State.draws_drawn (s : State) : s.drawn.draws = s.draws + 1 := rfl

theorem State.flag_freeFlags_of_notMem (s : State) (fs : List Flag) (g : Flag) (h : g ∉ fs) :
    (s.freeFlags fs).flag g = s.flag g := by
  induction fs generalizing s with
  | nil => rfl
  | cons f fs ih =>
    simp only [List.mem_cons, not_or] at h
    refine (ih (s.freeFlag f) h.2).trans ?_
    simp [State.flag_freeFlag, h.1]

/-- Draws of flags change FLAGS and the counter of draws only. -/
theorem State.freeFlags_eq (s : State) (fs : List Flag) :
    s.freeFlags fs = { s with flags := (s.freeFlags fs).flags, draws := s.draws + fs.length } := by
  induction fs generalizing s with
  | nil => rfl
  | cons f fs ih =>
    show (s.freeFlag f).freeFlags fs = _
    rw [ih]
    simp only [State.draws_freeFlag]
    show State.mk .. = State.mk ..
    simp [State.freeFlag, State.drawn, State.setFlag, State.freeFlags]
    omega

theorem maskFlags_freeFlags (s : State) (fs : List Flag) (h : maskFlags s.flags = s.flags) :
    maskFlags (s.freeFlags fs).flags = (s.freeFlags fs).flags := by
  induction fs generalizing s with
  | nil => exact h
  | cons f fs ih => exact ih (s.freeFlag f) (maskFlags_putFlag _ _ h)

end Sys2Proof.Machine
end

