-- ==== Sys2Proof/Laws/Registers.lean ====
section
/-! SUPPORT. Reading a register after writing one: the same register gives the value, any other keeps its own; the 8-bit registers share
storage with the 16-bit ones (10_state.md R30-R33). -/

namespace Sys2Proof.Machine

/-- A bit of a word put together from its halves. -/
theorem getLsbD_wordOf (lo hi : Byte) (i : Nat) :
    (wordOf lo hi).getLsbD i = if i < 8 then lo.getLsbD i else hi.getLsbD (i - 8) := by
  refine (BitVec.getLsbD_append (x := hi) (y := lo)).trans ?_
  cases decide (i < 8) <;> simp_all

theorem loByte_wordOf (lo hi : Byte) : loByte (wordOf lo hi) = lo := by
  apply BitVec.eq_of_getLsbD_eq
  intro i hi'
  simp [loByte, getLsbD_wordOf, hi']

theorem hiByte_wordOf (lo hi : Byte) : hiByte (wordOf lo hi) = hi := by
  apply BitVec.eq_of_getLsbD_eq
  intro i hi'
  simp [hiByte, getLsbD_wordOf, hi']

/-- A word is its halves put together (00_scope.md R11). -/
theorem wordOf_halves (v : Word) : wordOf (loByte v) (hiByte v) = v := by
  apply BitVec.eq_of_getLsbD_eq
  intro i hi
  rw [getLsbD_wordOf]
  split
  · simp_all [loByte]
  · have h' : i - 8 < 8 := by omega
    have e : 8 + (i - 8) = i := by omega
    simp [hiByte, h', e]

@[simp] theorem loByte_of_wordOf (lo hi : Byte) : loByte (wordOf lo hi) = lo := loByte_wordOf lo hi
@[simp] theorem hiByte_of_wordOf (lo hi : Byte) : hiByte (wordOf lo hi) = hi := hiByte_wordOf lo hi

theorem Regs.get_set (g : Regs) (r k : Reg16) (v : Word) : (g.set r v).get k = if k = r then v else g.get k := by
  cases r <;> cases k <;> rfl

theorem State.reg_setReg (s : State) (r k : Reg16) (v : Word) :
    (s.setReg r v).reg k = if k = r then v else s.reg k := Regs.get_set s.regs r k v

@[simp] theorem State.reg_setReg_self (s : State) (r : Reg16) (v : Word) : (s.setReg r v).reg r = v := by
  simp [State.reg_setReg]

@[simp] theorem State.reg_setReg_ne (s : State) {r k : Reg16} (v : Word) (h : k ≠ r) : (s.setReg r v).reg k = s.reg k := by
  simp [State.reg_setReg, h]

theorem SegRegs.get_set (g : SegRegs) (r k : SReg) (v : Word) : (g.set r v).get k = if k = r then v else g.get k := by
  cases r <;> cases k <;> rfl

theorem State.sreg_setSReg (s : State) (r k : SReg) (v : Word) :
    (s.setSReg r v).sreg k = if k = r then v else s.sreg k := SegRegs.get_set s.sregs r k v

@[simp] theorem State.sreg_setSReg_self (s : State) (r : SReg) (v : Word) : (s.setSReg r v).sreg r = v := by
  simp [State.sreg_setSReg]

@[simp] theorem State.sreg_setSReg_ne (s : State) {r k : SReg} (v : Word) (h : k ≠ r) : (s.setSReg r v).sreg k = s.sreg k := by
  simp [State.sreg_setSReg, h]

/-- An 8-bit register after a 16-bit write. -/
theorem State.reg8_setReg (s : State) (r : Reg16) (k : Reg8) (v : Word) :
    (s.setReg r v).reg8 k = if wideReg k = r then (if isHigh k then hiByte v else loByte v) else s.reg8 k := by
  by_cases h : wideReg k = r
  · subst h; simp [State.reg8]
  · simp [State.reg8, h]

@[simp] theorem State.reg8_setReg_ne (s : State) {r : Reg16} {k : Reg8} (v : Word) (h : wideReg k ≠ r) :
    (s.setReg r v).reg8 k = s.reg8 k := by
  simp [State.reg8_setReg, h]

/-- A 16-bit register after an 8-bit write: only the half named changes (R31). -/
theorem State.reg_setReg8 (s : State) (r : Reg8) (k : Reg16) (v : Byte) :
    (s.setReg8 r v).reg k =
      if k = wideReg r then (if isHigh r then wordOf (loByte (s.reg k)) v else wordOf v (hiByte (s.reg k))) else s.reg k := by
  by_cases h : k = wideReg r
  · subst h; simp [State.setReg8]
  · simp [State.setReg8, h]

@[simp] theorem State.reg_setReg8_ne (s : State) {r : Reg8} {k : Reg16} (v : Byte) (h : k ≠ wideReg r) :
    (s.setReg8 r v).reg k = s.reg k := by
  simp [State.reg_setReg8, h]

/-- An 8-bit register after an 8-bit write (R31). -/
theorem State.reg8_setReg8 (s : State) (r k : Reg8) (v : Byte) :
    (s.setReg8 r v).reg8 k = if k = r then v else s.reg8 k := by
  simp only [State.reg8, State.reg_setReg8]
  cases r <;> cases k <;> simp [wideReg, isHigh]

@[simp] theorem State.reg8_setReg8_self (s : State) (r : Reg8) (v : Byte) : (s.setReg8 r v).reg8 r = v := by
  simp [State.reg8_setReg8]

@[simp] theorem State.reg8_setReg8_ne (s : State) {r k : Reg8} (v : Byte) (h : k ≠ r) :
    (s.setReg8 r v).reg8 k = s.reg8 k := by
  simp [State.reg8_setReg8, h]

end Sys2Proof.Machine
end

