-- ==== Sys2Proof/Laws/Memory.lean ====
section
/-! SUPPORT. Memory cells and words: a read after a write, the canonical form, the two bytes of a word, and the linear address
(20_memory.md R80-R94). -/

namespace Sys2Proof.Machine

/-! ### Cells -/

/-- A write leaves every other address alone, whatever the list's form. -/
theorem cellGet_cellSet_ne (d : Byte) {a b : Nat} (v : Byte) (l : List Host.Cell) (h : b ≠ a) :
    cellGet d b (cellSet d a v l) = cellGet d b l := by
  induction l with
  | nil => unfold cellSet; split <;> simp [cellGet, h]
  | cons c l ih =>
    obtain ⟨k, u⟩ := c
    unfold cellSet
    split
    · split <;> simp [cellGet, h]
    · split
      · rename_i hk; subst hk; split <;> simp [cellGet, h]
      · simp only [cellGet, ih]

/-- An address below every listed one is not listed. -/
theorem cellGet_of_lt {d : Byte} {lo a : Nat} {l : List Host.Cell} (hw : cellsWf d lo l = true) (h : a < lo) : cellGet d a l = d := by
  induction l generalizing lo with
  | nil => rfl
  | cons c l ih =>
    obtain ⟨k, u⟩ := c
    simp only [cellsWf, Bool.and_eq_true, decide_eq_true_eq] at hw
    have hne : a ≠ k := by omega
    simp only [cellGet, if_neg hne]
    exact ih hw.2 (by omega)

/-- A write is read back, in the canonical form. -/
theorem cellGet_cellSet_self {d : Byte} {lo : Nat} (a : Nat) (v : Byte) {l : List Host.Cell} (hw : cellsWf d lo l = true) :
    cellGet d a (cellSet d a v l) = v := by
  induction l generalizing lo with
  | nil => unfold cellSet; split <;> simp_all [cellGet]
  | cons c l ih =>
    obtain ⟨k, u⟩ := c
    simp only [cellsWf, Bool.and_eq_true, decide_eq_true_eq] at hw
    unfold cellSet
    split
    · rename_i hk
      split
      · rename_i hv; subst hv
        have hne : a ≠ k := by omega
        simp only [cellGet, if_neg hne]
        exact cellGet_of_lt hw.2 (by omega)
      · simp [cellGet]
    · split
      · rename_i hk; subst hk
        split
        · rename_i hv; subst hv; exact cellGet_of_lt hw.2 (by omega)
        · simp [cellGet]
      · rename_i hk; simp only [cellGet, if_neg hk]; exact ih hw.2

/-- A write keeps the canonical form. -/
theorem cellsWf_cellSet {d : Byte} {lo a : Nat} (v : Byte) {l : List Host.Cell} (hw : cellsWf d lo l = true) (hlo : lo ≤ a)
    (ha : a < 0x100000) : cellsWf d lo (cellSet d a v l) = true := by
  induction l generalizing lo with
  | nil => unfold cellSet; split <;> simp_all [cellsWf]
  | cons c l ih =>
    obtain ⟨k, u⟩ := c
    have hw' := hw
    simp only [cellsWf, Bool.and_eq_true, decide_eq_true_eq] at hw
    obtain ⟨⟨⟨h1, h2⟩, h3⟩, h4⟩ := hw
    unfold cellSet
    split
    · split
      · exact hw'
      · simp_all [cellsWf]
    · split
      · rename_i hk; subst hk
        split
        · exact cellsWf_mono h4 (by omega)
        · simp_all [cellsWf]
      · simp only [cellsWf, Bool.and_eq_true, decide_eq_true_eq]
        exact ⟨⟨⟨h1, h2⟩, h3⟩, ih h4 (by omega)⟩
where
  cellsWf_mono {d : Byte} {lo lo' : Nat} {l : List Host.Cell} (h : cellsWf d lo l = true) (hl : lo' ≤ lo) : cellsWf d lo' l = true := by
    cases l with
    | nil => rfl
    | cons c l =>
      obtain ⟨k, u⟩ := c
      simp only [cellsWf, Bool.and_eq_true, decide_eq_true_eq] at h ⊢
      exact ⟨⟨⟨by omega, h.1.1.2⟩, h.1.2⟩, h.2⟩

/-- Every entry a write leaves is an entry from before or the one written. -/
theorem mem_cellSet {d : Byte} {a : Nat} {v : Byte} {l : List Host.Cell} {c : Host.Cell} (h : c ∈ cellSet d a v l) :
    c ∈ l ∨ c = (a, v) := by
  induction l with
  | nil => unfold cellSet at h; split at h <;> simp_all
  | cons b l ih =>
    obtain ⟨k, u⟩ := b
    unfold cellSet at h
    split at h
    · split at h <;> (simp_all; try tauto)
    · split at h
      · split at h
        · exact .inl (List.mem_cons_of_mem _ h)
        · simp_all; tauto
      · rcases List.mem_cons.1 h with h | h
        · exact .inl (by simp [h])
        · rcases ih h with h | h
          · exact .inl (List.mem_cons_of_mem _ h)
          · exact .inr h

/-! ### Bytes of memory -/

theorem State.peek_poke_ne (s : State) {a b : Addr} (v : Byte) (h : b ≠ a) : (s.poke a v).peek b = s.peek b :=
  cellGet_cellSet_ne _ v s.mem fun e => h (BitVec.eq_of_toNat_eq e)

theorem State.peek_poke_self (s : State) (a : Addr) (v : Byte) (h : Memory.wf s.mem = true) : (s.poke a v).peek a = v :=
  cellGet_cellSet_self a.toNat v h

theorem State.memory_wf_poke (s : State) (a : Addr) (v : Byte) (h : Memory.wf s.mem = true) : Memory.wf (s.poke a v).mem = true :=
  cellsWf_cellSet v h (Nat.zero_le _) a.isLt

theorem State.permissions_wf_setPermAt (s : State) (a : Addr) (v : Byte) (h : Permissions.wf s.perm = true) :
    Permissions.wf (s.setPermAt a v).perm = true := cellsWf_cellSet _ h (Nat.zero_le _) a.isLt

/-! ### The linear address (20_memory.md R80-R82) -/

theorem lin_toNat (seg off : Word) : (lin seg off).toNat = (seg.toNat * 16 + off.toNat) % 0x100000 := by
  have h1 := seg.isLt
  have h2 := off.isLt
  simp only [lin, BitVec.toNat_add, BitVec.toNat_shiftLeft, BitVec.toNat_setWidth, Nat.shiftLeft_eq]
  omega

/-- Two offsets of a segment have one linear address only if they are equal. -/
theorem lin_inj {seg a b : Word} : lin seg a = lin seg b ↔ a = b := by
  constructor
  · intro h
    have h' := congrArg BitVec.toNat h
    rw [lin_toNat, lin_toNat] at h'
    have h1 := seg.isLt
    have h2 := a.isLt
    have h3 := b.isLt
    exact BitVec.eq_of_toNat_eq (by omega)
  · rintro rfl; rfl

theorem lin_succ_ne (seg off : Word) : lin seg (off + 1) ≠ lin seg off := by
  rw [Ne, lin_inj]; bv_omega

theorem lin_ne_succ (seg off : Word) : lin seg off ≠ lin seg (off + 1) := (lin_succ_ne seg off).symm

/-! ### Words of memory -/

@[simp] theorem State.peek_storeByte_ne (s : State) (seg off : Word) (v : Byte) {a : Addr} (h : a ≠ lin seg off) :
    (s.storeByte seg off v).peek a = s.peek a := by
  rw [State.storeByte, State.peek_poke_ne _ _ h, State.peek_checked]

theorem State.peek_storeByte_self (s : State) (seg off : Word) (v : Byte) (h : Memory.wf s.mem = true) :
    (s.storeByte seg off v).peek (lin seg off) = v := by
  rw [State.storeByte, State.peek_poke_self]; simpa

theorem State.memory_wf_storeByte (s : State) (seg off : Word) (v : Byte) (h : Memory.wf s.mem = true) :
    Memory.wf (s.storeByte seg off v).mem = true := State.memory_wf_poke _ _ _ (by simpa)

theorem State.memory_wf_storeWord (s : State) (seg off : Word) (v : Word) (h : Memory.wf s.mem = true) :
    Memory.wf (s.storeWord seg off v).mem = true := State.memory_wf_storeByte _ _ _ _ (State.memory_wf_storeByte _ _ _ _ h)

/-- A word store changes its two bytes only (20_memory.md R81, R92). -/
theorem State.peek_storeWord_ne (s : State) (seg off : Word) (v : Word) {a : Addr} (h : a ∉ wordAddrs seg off) :
    (s.storeWord seg off v).peek a = s.peek a := by
  simp only [wordAddrs, List.mem_cons, List.not_mem_nil, or_false, not_or] at h
  rw [State.storeWord, State.peek_storeByte_ne _ _ _ _ h.2, State.peek_storeByte_ne _ _ _ _ h.1]

/-- The low byte of a stored word lies at its offset (20_memory.md R94). -/
theorem State.byteAt_storeWord_low (s : State) (seg off : Word) (v : Word) (h : Memory.wf s.mem = true) :
    (s.storeWord seg off v).byteAt seg off = loByte v := by
  rw [State.byteAt, State.storeWord, State.peek_storeByte_ne _ _ _ _ (lin_ne_succ seg off), State.peek_storeByte_self _ _ _ _ h]

/-- The high byte of a stored word lies at the next offset (20_memory.md R94). -/
theorem State.byteAt_storeWord_high (s : State) (seg off : Word) (v : Word) (h : Memory.wf s.mem = true) :
    (s.storeWord seg off v).byteAt seg (off + 1) = hiByte v := by
  rw [State.byteAt, State.storeWord, State.peek_storeByte_self _ _ _ _ (State.memory_wf_storeByte _ _ _ _ h)]

/-- A stored word is read back (20_memory.md R81, R94). -/
theorem State.wordAt_storeWord_self (s : State) (seg off : Word) (v : Word) (h : Memory.wf s.mem = true) :
    (s.storeWord seg off v).wordAt seg off = v := by
  rw [State.wordAt, State.byteAt_storeWord_low _ _ _ _ h, State.byteAt_storeWord_high _ _ _ _ h, wordOf_halves]

/-- A word whose bytes are not stored to reads as before. -/
theorem State.wordAt_storeWord_ne (s : State) (seg off seg' off' : Word) (v : Word)
    (h1 : lin seg' off' ∉ wordAddrs seg off) (h2 : lin seg' (off' + 1) ∉ wordAddrs seg off) :
    (s.storeWord seg off v).wordAt seg' off' = s.wordAt seg' off' := by
  simp only [State.wordAt, State.byteAt, State.peek_storeWord_ne _ _ _ _ h1, State.peek_storeWord_ne _ _ _ _ h2]

end Sys2Proof.Machine
end

