-- ==== Sys2Proof/Laws/Quiet.lean ====
section
/-! SUPPORT. What each shared operation answers under the quiet host: one equation each, in the plain values and states of Safety.lean. -/

namespace Sys2Proof.Machine

/-! ### Sequencing -/

@[simp] theorem thenDo_next {α β : Type} (a : α) (f : α → Host.Outcome β Fault Refusal) : thenDo (.next a) f = f a := rfl

@[simp] theorem thenDo_fault {α β : Type} (r : Fault) (f : α → Host.Outcome β Fault Refusal) : thenDo (.fault r) f = .fault r := rfl

@[simp] theorem thenDo_refused {α β : Type} (r : Refusal) (f : α → Host.Outcome β Fault Refusal) :
    thenDo (.refused r) f = .refused r := rfl

@[simp] theorem thenWith_next {α β : Type} (a : α) (s : State) (f : α → State → Host.Outcome β Fault Refusal) :
    thenWith (.next (a, s)) f = f a s := rfl

theorem thenDo_eq_next {α β : Type} {o : Host.Outcome α Fault Refusal} {f : α → Host.Outcome β Fault Refusal} {b : β}
    (h : thenDo o f = .next b) : ∃ a, o = .next a ∧ f a = .next b := by
  cases o with
  | next a => exact ⟨a, rfl, h⟩
  | fault r => cases h
  | refused r => cases h

theorem thenWith_eq_next {α β : Type} {o : Res α} {f : α → State → Host.Outcome β Fault Refusal} {b : β}
    (h : thenWith o f = .next b) : ∃ a s, o = .next (a, s) ∧ f a s = .next b := by
  obtain ⟨⟨a, s⟩, h1, h2⟩ := thenDo_eq_next h
  exact ⟨a, s, h1, h2⟩

/-! ### The quiet host stays quiet -/

theorem quiet_of_host {s t : State} (h : t.host = s.host) : Quiet t ↔ Quiet s := by rw [Quiet, Quiet, h]

theorem quiet_told {s : State} (c : HostCall) (h : Quiet s) : Quiet (s.told c) := fun r hr => h r (List.mem_of_mem_tail hr)

theorem quiet_checked {s : State} (k : Permission) (a : Addr) (h : Quiet s) : Quiet (s.checked k a) := by
  unfold State.checked
  split
  · exact h
  · exact quiet_told _ h

theorem quiet_checkedWord {s : State} (k : Permission) (seg off : Word) (h : Quiet s) : Quiet (s.checkedWord k seg off) :=
  quiet_checked _ _ (quiet_checked _ _ h)

theorem quiet_checkedFar {s : State} (seg off : Word) (h : Quiet s) : Quiet (s.checkedFar seg off) :=
  quiet_checkedWord _ _ _ (quiet_checkedWord _ _ _ h)

theorem quiet_storeByte {s : State} (seg off : Word) (v : Byte) (h : Quiet s) : Quiet (s.storeByte seg off v) :=
  (quiet_of_host (State.poke_host ..)).2 (quiet_checked _ _ h)

theorem quiet_storeWord {s : State} (seg off : Word) (v : Word) (h : Quiet s) : Quiet (s.storeWord seg off v) :=
  quiet_storeByte _ _ _ (quiet_storeByte _ _ _ h)

theorem quiet_pushed {s : State} (v : Word) (h : Quiet s) : Quiet (s.pushed v) :=
  quiet_storeWord _ _ _ ((quiet_of_host (State.setReg_host ..)).2 h)

theorem quiet_popped {s : State} (h : Quiet s) : Quiet s.popped :=
  (quiet_of_host (State.setReg_host ..)).2 (quiet_checkedWord _ _ _ h)

theorem quiet_setReg {s : State} {r : Reg16} {v : Word} : Quiet (s.setReg r v) ↔ Quiet s := Iff.rfl
theorem quiet_setReg8 {s : State} {r : Reg8} {v : Byte} : Quiet (s.setReg8 r v) ↔ Quiet s := Iff.rfl
theorem quiet_setSReg {s : State} {r : SReg} {v : Word} : Quiet (s.setSReg r v) ↔ Quiet s := Iff.rfl
theorem quiet_setIp {s : State} {v : Word} : Quiet (s.setIp v) ↔ Quiet s := Iff.rfl
theorem quiet_setFlag {s : State} {f : Flag} {b : Bool} : Quiet (s.setFlag f b) ↔ Quiet s := Iff.rfl
theorem quiet_mapFlags {s : State} {g : Word → Word} : Quiet (s.mapFlags g) ↔ Quiet s := Iff.rfl
theorem quiet_setFlags16 {s : State} {v : Word} : Quiet (s.setFlags16 v) ↔ Quiet s := Iff.rfl
theorem quiet_setRunState {s : State} {r : RunState} : Quiet (s.setRunState r) ↔ Quiet s := Iff.rfl
theorem quiet_markRaised {s : State} : Quiet s.markRaised ↔ Quiet s := Iff.rfl
theorem quiet_counted {s : State} : Quiet s.counted ↔ Quiet s := Iff.rfl
theorem quiet_drawn {s : State} : Quiet s.drawn ↔ Quiet s := Iff.rfl
theorem quiet_freeFlag {s : State} {f : Flag} : Quiet (s.freeFlag f) ↔ Quiet s := Iff.rfl
theorem quiet_poke {s : State} {a : Addr} {v : Byte} : Quiet (s.poke a v) ↔ Quiet s := Iff.rfl
theorem quiet_freeFlags {s : State} {fs : List Flag} : Quiet (s.freeFlags fs) ↔ Quiet s :=
  quiet_of_host (by rw [State.freeFlags_eq])

/-! ### Calls, checks and accesses -/

/-- A call answered by a reply that returns and does nothing (60_exceptions.md R609). -/
theorem callHost_of_quiet_reply {s : State} {c : HostCall} (h : (s.replyTo c).Quiet) : callHost c s = .next (s.heard c) := by
  simp [callHost, callHostWith, h.1, h.2, hostActs]

/-- Only a free reply is a draw. -/
theorem heard_eq_told {s : State} {c : HostCall} (h : c.isInterrupt = true → s.atInterrupt ≠ none) : s.heard c = s.told c := by
  unfold State.heard
  split
  · rename_i hd
    simp only [Bool.and_eq_true, Option.isNone_iff_eq_none] at hd
    exact absurd hd.2 (h hd.1.2)
  · rfl

/-- A quiet host's reply to a call other than `interrupt`. -/
theorem replyTo_quiet {s : State} {c : HostCall} (h : Quiet s) (hc : c.isInterrupt = false) : (s.replyTo c).Quiet := by
  unfold State.replyTo
  split
  · rename_i hh
    exact h _ (by simp [hh])
  · rw [hc]
    exact ⟨rfl, rfl⟩

/-- A quiet host's reply to any call, where it is quiet at interrupts too. -/
theorem replyTo_quiet_interrupt {s : State} (c : HostCall) (h : Quiet s) (hi : QuietAtInterrupt s) : (s.replyTo c).Quiet := by
  obtain ⟨r, hr, hq⟩ := hi
  unfold State.replyTo
  split
  · rename_i hh
    exact h _ (by simp [hh])
  · split
    · rw [hr]; exact hq
    · exact ⟨rfl, rfl⟩

/-- A call of the quiet host answers next (60_exceptions.md R609). -/
theorem callHost_quiet {s : State} (c : HostCall) (h : Quiet s) (hc : c.isInterrupt = false := by rfl) :
    callHost c s = .next (s.told c) := by
  rw [callHost_of_quiet_reply (replyTo_quiet h hc), heard_eq_told (by simp [hc])]

/-- The `interrupt` call of a host that is quiet there too (60_exceptions.md R582, R602). -/
theorem callHost_quiet_interrupt {s : State} (c : HostCall) (h : Quiet s) (hi : QuietAtInterrupt s) :
    callHost c s = .next (s.told c) := by
  rw [callHost_of_quiet_reply (replyTo_quiet_interrupt c h hi), heard_eq_told]
  intro _ hn
  obtain ⟨r, hr, _⟩ := hi
  simp [hn] at hr

/-- The call of HLT (47_system.md R530). -/
theorem haltCall_quiet {s : State} (h : Quiet s) : haltCall s = s.told .halt := by
  rw [haltCall, callHost_quiet .halt h]

/-- A port read: the answer of the next reply, a free value where it gives none (20_memory.md R100). -/
theorem portRead_quiet {s : State} (c : HostCall) (h : Quiet s) (hc : c.isInterrupt = false := by rfl) :
    portRead c s = .next (match s.host.head?.bind HostReply.answer with
      | some v => (v, s.told c)
      | none => (Config.freeWord s.draws, (s.told c).drawn)) := by
  rw [portRead, callHost_quiet c h hc, thenDo_next]
  cases hh : s.host with
  | nil => simp [State.replyTo, hh, hc, HostReply.passive]
  | cons r rest => cases ha : r.answer <;> simp [State.replyTo, hh, ha]

theorem checkAccess_quiet {s : State} (k : Permission) (a : Addr) (h : Quiet s) :
    checkAccess k a s = .next (s.checked k a) := by
  unfold checkAccess checkBy State.checked
  split
  · rfl
  · exact callHost_quiet _ h

theorem readByte_quiet {s : State} (a : Addr) (h : Quiet s) : readByte a s = .next (s.peek a, s.checked .read a) := by
  show thenDo (checkAccess .read a s) _ = _
  simp [checkAccess_quiet _ _ h]

theorem fetchByte_quiet {s : State} (a : Addr) (h : Quiet s) : fetchByte a s = .next (s.peek a, s.checked .execute a) := by
  simp [fetchByte, checkAccess_quiet _ _ h]

theorem memRead8_quiet {s : State} (seg off : Word) (h : Quiet s) :
    memRead8 seg off s = .next (s.byteAt seg off, s.checked .read (lin seg off)) := readByte_quiet _ h

theorem memRead16_quiet {s : State} (seg off : Word) (h : Quiet s) :
    memRead16 seg off s = .next (s.wordAt seg off, s.checkedWord .read seg off) := by
  show thenWith (readByte (lin seg off) s) (fun lo s => thenWith (readByte (lin seg (off + 1)) s) fun hi s => .next (wordOf lo hi, s)) = _
  simp [readByte_quiet _ h, readByte_quiet _ (quiet_checked _ _ h), State.wordAt, State.byteAt, State.checkedWord]

theorem memReadFar_quiet {s : State} (seg off : Word) (h : Quiet s) :
    memReadFar seg off s = .next ((s.wordAt seg off, s.wordAt seg (off + 2)), s.checkedFar seg off) := by
  simp [memReadFar, memRead16_quiet _ _ h, memRead16_quiet _ _ (quiet_checkedWord _ _ _ h), State.checkedFar]

theorem memWrite8_quiet {s : State} (seg off : Word) (v : Byte) (h : Quiet s) :
    memWrite8 seg off v s = .next (s.storeByte seg off v) := by
  simp [memWrite8, writeByte, checkAccess_quiet _ _ h, State.storeByte]

theorem memWrite16_quiet {s : State} (seg off : Word) (v : Word) (h : Quiet s) :
    memWrite16 seg off v s = .next (s.storeWord seg off v) := by
  have h1 : memWrite8 seg off (loByte v) s = .next (s.storeByte seg off (loByte v)) := memWrite8_quiet _ _ _ h
  have h2 := memWrite8_quiet seg (off + 1) (hiByte v) (quiet_storeByte seg off (loByte v) h)
  show thenDo (memWrite8 seg off (loByte v) s) (fun s => memWrite8 seg (off + 1) (hiByte v) s) = _
  rw [h1, thenDo_next, h2]; rfl

theorem push16_quiet {s : State} (v : Word) (h : Quiet s) : push16 v s = .next (s.pushed v) := by
  simp [push16, memWrite16_quiet _ _ _ (quiet_setReg.2 h), State.pushed]

theorem pop16_quiet {s : State} (h : Quiet s) : pop16 s = .next (s.top, s.popped) := by
  show thenWith (memRead16 (s.sreg .ss) (s.reg .sp) s) (fun v s => .next (v, s.setReg .sp (s.reg .sp + 2))) = _
  simp [memRead16_quiet _ _ h, State.popped, State.top]

/-! ### Operands -/

theorem readLoc8_quiet {s : State} (l : Loc Reg8) (h : Quiet s) : readLoc8 l s = .next (l.get8 s, l.seen8 s) := by
  cases l with
  | reg r => rfl
  | mem seg off => exact memRead8_quiet _ _ h

theorem readLoc16_quiet {s : State} (l : Loc Reg16) (h : Quiet s) : readLoc16 l s = .next (l.get16 s, l.seen16 s) := by
  cases l with
  | reg r => rfl
  | mem seg off => exact memRead16_quiet _ _ h

theorem writeLoc8_quiet {s : State} (l : Loc Reg8) (v : Byte) (h : Quiet s) : writeLoc8 l v s = .next (l.put8 v s) := by
  cases l with
  | reg r => rfl
  | mem seg off => exact memWrite8_quiet _ _ _ h

theorem writeLoc16_quiet {s : State} (l : Loc Reg16) (v : Word) (h : Quiet s) : writeLoc16 l v s = .next (l.put16 v s) := by
  cases l with
  | reg r => rfl
  | mem seg off => exact memWrite16_quiet _ _ _ h

theorem readRm8_quiet {s : State} (e : Rm8) (h : Quiet s) : readRm8 e s = .next (e.value s, e.seen s) := readLoc8_quiet _ h

theorem readRm16_quiet {s : State} (e : Rm16) (h : Quiet s) : readRm16 e s = .next (e.value s, e.seen s) := readLoc16_quiet _ h

theorem readFar_quiet {s : State} (m : MemOp) (h : Quiet s) :
    readFar m s = .next ((m.farOffset s, m.farSegment s), m.farSeen s) := memReadFar_quiet _ _ h

theorem writeRm8_quiet {s t : State} (e : Rm8) (v : Byte) (h : Quiet t) :
    writeLoc8 (locate8 e s) v t = .next (e.stored s v t) := writeLoc8_quiet _ _ h

theorem writeRm16_quiet {s t : State} (e : Rm16) (v : Word) (h : Quiet t) :
    writeLoc16 (locate16 e s) v t = .next (e.stored s v t) := writeLoc16_quiet _ _ h

theorem quiet_seen8 {s : State} (e : Rm8) (h : Quiet s) : Quiet (e.seen s) := by
  unfold Rm8.seen Loc.seen8
  split
  · exact h
  · exact quiet_checked _ _ h

theorem quiet_seen16 {s : State} (e : Rm16) (h : Quiet s) : Quiet (e.seen s) := by
  unfold Rm16.seen Loc.seen16
  split
  · exact h
  · exact quiet_checkedWord _ _ _ h

theorem quiet_farSeen {s : State} (m : MemOp) (h : Quiet s) : Quiet (m.farSeen s) := quiet_checkedFar _ _ h

theorem quiet_stored8 {s t : State} (e : Rm8) (v : Byte) (h : Quiet t) : Quiet (e.stored s v t) := by
  unfold Rm8.stored Loc.put8
  split
  · exact h
  · exact quiet_storeByte _ _ _ h

theorem quiet_stored16 {s t : State} (e : Rm16) (v : Word) (h : Quiet t) : Quiet (e.stored s v t) := by
  unfold Rm16.stored Loc.put16
  split
  · exact h
  · exact quiet_storeWord _ _ _ h

theorem modifyRm8_quiet {s : State} (e : Rm8) (f : Byte → State → Byte × State) (h : Quiet s)
    (hf : ∀ v t, Quiet t → Quiet (f v t).2) :
    modifyRm8 e f s = .next (e.stored s (f (e.value s) (e.seen s)).1 (f (e.value s) (e.seen s)).2) := by
  simp [modifyRm8, readRm8_quiet e h, writeRm8_quiet e _ (hf _ _ (quiet_seen8 e h))]

theorem modifyRm16_quiet {s : State} (e : Rm16) (f : Word → State → Word × State) (h : Quiet s)
    (hf : ∀ v t, Quiet t → Quiet (f v t).2) :
    modifyRm16 e f s = .next (e.stored s (f (e.value s) (e.seen s)).1 (f (e.value s) (e.seen s)).2) := by
  simp [modifyRm16, readRm16_quiet e h, writeRm16_quiet e _ (hf _ _ (quiet_seen16 e h))]

/-! ### Taking an interrupt and returning from one -/

theorem quiet_framed {s : State} (n : Byte) (h : Quiet s) : Quiet (s.framed n) :=
  quiet_checkedFar _ _ (quiet_setFlag.2 (quiet_setFlag.2 (quiet_pushed _ (quiet_pushed _ (quiet_pushed _ h)))))

/-- `raise Interrupt(n)` up to the call of the host, whatever the host does there (60_exceptions.md R580, R602). -/
theorem interrupt_calls {s : State} (n : Byte) (h : Quiet s) :
    interrupt n s = thenDo (callHost (.interrupt n) (s.presented n)) fun t => .next (t.setRunState .idle) := by
  have h1 := quiet_pushed s.flags16 h
  have h2 := quiet_pushed (s.sreg .cs) h1
  have h3 := quiet_pushed s.ip h2
  have h4 : Quiet (((((s.pushed s.flags16).pushed (s.sreg .cs)).pushed s.ip).setFlag .TF false).setFlag .IF false) := h3
  simp only [interrupt, push16_quiet _ h, thenDo_next, State.sreg_pushed, push16_quiet _ h1, State.pushed_ip, push16_quiet _ h2,
    memReadFar_quiet _ _ h4, thenWith_next, State.presented, State.framed, State.wordAt_checkedFar]

theorem quiet_presented {s : State} (n : Byte) (h : Quiet s) : Quiet (s.presented n) := quiet_framed n h

@[simp] theorem State.presented_atInterrupt (s : State) (n : Byte) : (s.presented n).atInterrupt = s.atInterrupt := by
  simp [State.presented, State.framed]

theorem quietAtInterrupt_of {s t : State} (h : t.atInterrupt = s.atInterrupt) (hi : QuietAtInterrupt s) : QuietAtInterrupt t := by
  rw [QuietAtInterrupt, h]; exact hi

/-- `raise Interrupt(n)` with a host that is quiet at interrupts too (60_exceptions.md R580). -/
theorem interrupt_quiet {s : State} (n : Byte) (h : Quiet s) (hi : QuietAtInterrupt s) : interrupt n s = .next (s.dispatched n) := by
  rw [interrupt_calls n h, callHost_quiet_interrupt _ (quiet_presented n h) (quietAtInterrupt_of (by simp) hi)]
  rfl

theorem returnFromInterrupt_quiet {s : State} (h : Quiet s) :
    returnFromInterrupt s = .next (let t := s.popped.setIp s.top
      let u := t.popped.setSReg .cs t.top
      u.popped.setFlags16 u.top) := by
  have h1 : Quiet (s.popped.setIp s.top) := quiet_popped h
  have h2 : Quiet ((s.popped.setIp s.top).popped.setSReg .cs (s.popped.setIp s.top).top) := quiet_popped h1
  show thenWith (pop16 s) (fun v s => thenWith (pop16 (s.setIp v)) fun v s => thenWith (pop16 (s.setSReg .cs v)) fun v s =>
    .next (s.setFlags16 v)) = _
  simp [pop16_quiet h, pop16_quiet h1, pop16_quiet h2]

theorem divideFault_quiet {s : State} (h : Quiet s) (hi : QuietAtInterrupt s) :
    divideFault s = .next ((s.freeFlags [.CF, .PF, .AF, .ZF, .SF, .OF]).dispatched 0) :=
  interrupt_quiet 0 (quiet_freeFlags.2 h) (quietAtInterrupt_of (by rw [State.freeFlags_eq]) hi)

end Sys2Proof.Machine
end

