-- ==== Sys2Proof/Laws/Alu.lean ====
section
/-! SUPPORT. The shared forms of the arithmetic, logic and shift instructions under the quiet host, and the numbers behind the divisions. -/

namespace Sys2Proof.Machine

theorem quiet_aluApply {w : Nat} (op : AluOp) (a b : BitVec w) {s : State} (h : Quiet s) : Quiet (aluApply op a b s).2 := by
  cases op <;> exact h

theorem aluRm8_quiet (op : AluOp) (e : Rm8) (src : State → Byte) {s : State} (h : Quiet s) :
    aluRm8 op e src s = .next (let r := aluApply op (e.value s) (src (e.seen s)) (e.seen s)
      if op.writes then e.stored s r.1 r.2 else r.2) := by
  simp only [aluRm8, readRm8_quiet e h, thenWith_next]
  split
  · rw [writeRm8_quiet _ _ (quiet_aluApply _ _ _ (quiet_seen8 _ h))]
  · rfl

theorem aluRm16_quiet (op : AluOp) (e : Rm16) (src : State → Word) {s : State} (h : Quiet s) :
    aluRm16 op e src s = .next (let r := aluApply op (e.value s) (src (e.seen s)) (e.seen s)
      if op.writes then e.stored s r.1 r.2 else r.2) := by
  simp only [aluRm16, readRm16_quiet e h, thenWith_next]
  split
  · rw [writeRm16_quiet _ _ (quiet_aluApply _ _ _ (quiet_seen16 _ h))]
  · rfl

theorem aluReg8_quiet (op : AluOp) (g : Reg8) (e : Rm8) {s : State} (h : Quiet s) :
    aluReg8 op g e s = .next (let r := aluApply op (s.reg8 g) (e.value s) (e.seen s)
      if op.writes then r.2.setReg8 g r.1 else r.2) := by
  simp only [aluReg8, readRm8_quiet e h, thenWith_next]

theorem aluReg16_quiet (op : AluOp) (g : Reg16) (e : Rm16) {s : State} (h : Quiet s) :
    aluReg16 op g e s = .next (let r := aluApply op (s.reg g) (e.value s) (e.seen s)
      if op.writes then r.2.setReg g r.1 else r.2) := by
  simp only [aluReg16, readRm16_quiet e h, thenWith_next]

theorem quiet_shiftValue {w : Nat} (op : ShiftOp) (n : Nat) (v : BitVec w) (t : State) (h : Quiet t) :
    Quiet (shiftValue op n v t).2 := by
  unfold shiftValue
  split
  · exact h
  · dsimp only
    split <;> exact h

/-- DX:AX as a number. -/
theorem dxAx_toNat (s : State) : (dxAx s).toNat = (s.reg .dx).toNat * 0x10000 + (s.reg .ax).toNat := by
  have h := (s.reg .ax).isLt
  simp only [dxAx]
  rw [BitVec.toNat_append, ← Nat.shiftLeft_add_eq_or_of_lt h, Nat.shiftLeft_eq]

theorem dxAx_seen16 (e : Rm16) (s : State) : dxAx (e.seen s) = dxAx s := by simp [dxAx]

/-- A signed division that stays in range (42_arithmetic.md R323). -/
theorem divideSigned_some {n d limit : Int} (h : d ≠ 0) (h1 : -limit ≤ n.tdiv d) (h2 : n.tdiv d ≤ limit) :
    divideSigned n d limit = some (n.tdiv d, n - n.tdiv d * d) := by
  have : ¬(n.tdiv d < -limit ∨ limit < n.tdiv d) := by omega
  simp [divideSigned, h, this]

theorem reg_popped_sp (s : State) : s.popped.reg .sp = s.reg .sp + 2 := by simp [State.popped]

theorem setReg_reg_self (s : State) (r : Reg16) : s.setReg r (s.reg r) = s := by
  have : s.regs.set r (s.regs.get r) = s.regs := by cases r <;> rfl
  show { s with regs := s.regs.set r (s.regs.get r) } = s
  rw [this]

end Sys2Proof.Machine
end

