-- ==== Sys2Proof/Laws/AnyHost.lean ====
section
/-! SUPPORT. What each shared operation can do under any host: it answers next, having kept what `Kept` says, or it stops where a host
does not return. One lemma for each operation; a meaning composes them with `Runs.thenDo` and `RunsWith.thenWith`. -/

namespace Sys2Proof.Machine

/-- What no operation of the machine breaks, whatever the host does in the calls it makes: the reserved bits of FLAGS, the canonical forms,
the counter, SINGLE_STEP, what the host does past its script, and that the script is used up from its front. -/
structure Kept (s t : State) : Prop where
  flags : maskFlags s.flags = s.flags → maskFlags t.flags = t.flags
  mem : Memory.wf s.mem = true → Memory.wf t.mem = true
  perm : Permissions.wf s.perm = true → Permissions.wf t.perm = true
  permBits : (∀ c ∈ s.perm, c.2 &&& 0xF8 = 0) → ∀ c ∈ t.perm, c.2 &&& 0xF8 = 0
  instructionCount : t.instructionCount = s.instructionCount
  singleStep : t.singleStep = s.singleStep
  atInterrupt : t.atInterrupt = s.atInterrupt
  host : ∃ used, s.host = used ++ t.host

/-- Some call of the host may not return: a reply of the script does not, or what the host does at an `interrupt` past it. -/
def MayStop (s : State) : Prop := (∃ r ∈ s.host, r.returns = false) ∨ ∀ r, s.atInterrupt = some r → r.returns = false

/-- A stop reached from `s`: the host did not return from a call, and the state there has kept what `Kept` says. -/
def Stops (s : State) (f : Fault) : Prop := MayStop s ∧ ∃ c t, f = .hostStopped c t ∧ Kept s t

/-- An outcome reached from `s`. -/
def Runs (s : State) (o : Out) : Prop :=
  match o with
  | .next t => Kept s t
  | .fault f => Stops s f
  | .refused _ => False

/-- As `Runs`, for an operation that also gives a value. -/
def RunsWith {α : Type} (s : State) (o : Res α) : Prop :=
  match o with
  | .next p => Kept s p.2
  | .fault f => Stops s f
  | .refused _ => False

theorem Kept.refl (s : State) : Kept s s := ⟨id, id, id, id, rfl, rfl, rfl, [], rfl⟩

theorem Kept.trans {s t u : State} (h : Kept s t) (k : Kept t u) : Kept s u where
  flags := fun x => k.flags (h.flags x)
  mem := fun x => k.mem (h.mem x)
  perm := fun x => k.perm (h.perm x)
  permBits := fun x => k.permBits (h.permBits x)
  instructionCount := k.instructionCount.trans h.instructionCount
  singleStep := k.singleStep.trans h.singleStep
  atInterrupt := k.atInterrupt.trans h.atInterrupt
  host := by
    obtain ⟨a, ha⟩ := h.host
    obtain ⟨b, hb⟩ := k.host
    exact ⟨a ++ b, by rw [ha, hb, List.append_assoc]⟩

/-- A state that differs in none of the fields `Kept` speaks of. -/
theorem Kept.of_fields {s t : State} (hf : t.flags = s.flags) (hm : t.mem = s.mem) (hp : t.perm = s.perm)
    (hc : t.instructionCount = s.instructionCount) (hs : t.singleStep = s.singleStep)
    (hi : t.atInterrupt = s.atInterrupt) (hh : t.host = s.host) : Kept s t :=
  ⟨by rw [hf]; exact id, by rw [hm]; exact id, by rw [hp]; exact id, by rw [hp]; exact id, hc, hs, hi, [], by rw [hh]; rfl⟩

theorem Kept.of_flags {s t : State} (hf : maskFlags s.flags = s.flags → maskFlags t.flags = t.flags) (hm : t.mem = s.mem)
    (hp : t.perm = s.perm) (hc : t.instructionCount = s.instructionCount) (hs : t.singleStep = s.singleStep)
    (hi : t.atInterrupt = s.atInterrupt) (hh : t.host = s.host) : Kept s t :=
  ⟨hf, by rw [hm]; exact id, by rw [hp]; exact id, by rw [hp]; exact id, hc, hs, hi, [], by rw [hh]; rfl⟩

/-! ### Plain updates -/

theorem kept_setReg (s : State) (r : Reg16) (v : Word) : Kept s (s.setReg r v) := .of_fields rfl rfl rfl rfl rfl rfl rfl
theorem kept_setReg8 (s : State) (r : Reg8) (v : Byte) : Kept s (s.setReg8 r v) := .of_fields rfl rfl rfl rfl rfl rfl rfl
theorem kept_setSReg (s : State) (r : SReg) (v : Word) : Kept s (s.setSReg r v) := .of_fields rfl rfl rfl rfl rfl rfl rfl
theorem kept_setIp (s : State) (v : Word) : Kept s (s.setIp v) := .of_fields rfl rfl rfl rfl rfl rfl rfl
theorem kept_setRunState (s : State) (r : RunState) : Kept s (s.setRunState r) := .of_fields rfl rfl rfl rfl rfl rfl rfl
theorem kept_markRaised (s : State) : Kept s s.markRaised := .of_fields rfl rfl rfl rfl rfl rfl rfl
theorem kept_drawn (s : State) : Kept s s.drawn := .of_fields rfl rfl rfl rfl rfl rfl rfl
theorem kept_logCall (s : State) (c : HostCall) : Kept s (s.logCall c) := .of_fields rfl rfl rfl rfl rfl rfl rfl
theorem kept_stepPast (s : State) (b : Byte) : Kept s (s.stepPast b) := .of_fields rfl rfl rfl rfl rfl rfl rfl

theorem kept_setFlag (s : State) (f : Flag) (b : Bool) : Kept s (s.setFlag f b) :=
  .of_flags (fun h => maskFlags_putFlag f b h) rfl rfl rfl rfl rfl rfl

theorem kept_setFlags16 (s : State) (v : Word) : Kept s (s.setFlags16 v) :=
  .of_flags (fun _ => maskFlags_maskFlags v) rfl rfl rfl rfl rfl rfl

/-- A flag computation that keeps the reserved bits. -/
theorem kept_mapFlags (s : State) {g : Word → Word} (hg : ∀ v, maskFlags v = v → maskFlags (g v) = g v) : Kept s (s.mapFlags g) :=
  .of_flags (hg _) rfl rfl rfl rfl rfl rfl

theorem kept_freeFlag (s : State) (f : Flag) : Kept s (s.freeFlag f) := (kept_setFlag s f s.draw).trans (kept_drawn _)

theorem kept_freeFlags (s : State) (fs : List Flag) : Kept s (s.freeFlags fs) := by
  induction fs generalizing s with
  | nil => exact .refl s
  | cons f fs ih => exact (kept_freeFlag s f).trans (ih _)

theorem kept_poke (s : State) (a : Addr) (v : Byte) : Kept s (s.poke a v) :=
  ⟨id, s.memory_wf_poke a v, id, id, rfl, rfl, rfl, [], rfl⟩

theorem kept_setPermAt (s : State) (a : Addr) (v : Byte) : Kept s (s.setPermAt a v) where
  flags := id
  mem := id
  perm := s.permissions_wf_setPermAt a v
  permBits := by
    intro h c hc
    rcases mem_cellSet hc with hc | rfl
    · exact h c hc
    · show v &&& 0x07 &&& 0xF8 = 0
      rw [BitVec.and_assoc]
      simp
  instructionCount := rfl
  singleStep := rfl
  atInterrupt := rfl
  host := ⟨[], rfl⟩

/-! ### Permissions -/

theorem kept_applyPermission (mask : Byte) (n : Nat) (a : Addr) (s : State) : Kept s (State.applyPermission mask n a s) := by
  induction n generalizing a s with
  | zero => exact .refl s
  | succ n ih => exact (kept_setPermAt s a _).trans (ih _ _)

theorem kept_removePermission (mask : Byte) (n : Nat) (a : Addr) (s : State) : Kept s (State.removePermission mask n a s) := by
  induction n generalizing a s with
  | zero => exact .refl s
  | succ n ih => exact (kept_setPermAt s a _).trans (ih _ _)

/-! ### Sequencing -/

theorem Runs.next {s t : State} (h : Kept s t) : Runs s (.next t) := h

theorem RunsWith.next {α : Type} {s t : State} {a : α} (h : Kept s t) : RunsWith s (.next (a, t)) := h

/-- A call that may not return later may not return seen from before. -/
theorem MayStop.of_kept {s t : State} (h : Kept s t) (k : MayStop t) : MayStop s := by
  rcases k with ⟨r, hr, h1⟩ | k
  · obtain ⟨used, hu⟩ := h.host
    exact .inl ⟨r, by rw [hu]; exact List.mem_append_right _ hr, h1⟩
  · exact .inr (h.atInterrupt ▸ k)

/-- What stops after `Kept` states stops from the first. -/
theorem Stops.of_kept {s t : State} {f : Fault} (h : Kept s t) (k : Stops t f) : Stops s f := by
  obtain ⟨hm, c, u, hf, hk⟩ := k
  exact ⟨hm.of_kept h, c, u, hf, h.trans hk⟩

theorem Runs.of_kept {s t : State} {o : Out} (h : Kept s t) (k : Runs t o) : Runs s o := by
  cases o with
  | next u => exact h.trans k
  | fault f => exact Stops.of_kept h k
  | refused r => exact k

theorem RunsWith.of_kept {α : Type} {s t : State} {o : Res α} (h : Kept s t) (k : RunsWith t o) : RunsWith s o := by
  cases o with
  | next u => exact h.trans k
  | fault f => exact Stops.of_kept h k
  | refused r => exact k

theorem Runs.thenDo {s : State} {o : Out} {f : State → Out} (h : Runs s o) (k : ∀ t, Runs t (f t)) : Runs s (thenDo o f) := by
  cases o with
  | next t => exact (k t).of_kept h
  | fault r => exact h
  | refused r => exact h

theorem Runs.thenGive {α : Type} {s : State} {o : Out} {f : State → Res α} (h : Runs s o) (k : ∀ t, RunsWith t (f t)) :
    RunsWith s (Machine.thenDo o f) := by
  cases o with
  | next t => exact (k t).of_kept h
  | fault r => exact h
  | refused r => exact h

theorem RunsWith.thenWith {α : Type} {s : State} {o : Res α} {f : α → State → Out} (h : RunsWith s o) (k : ∀ a t, Runs t (f a t)) :
    Runs s (thenWith o f) := by
  cases o with
  | next p => exact (k p.1 p.2).of_kept h
  | fault r => exact h
  | refused r => exact h

theorem RunsWith.thenGive {α β : Type} {s : State} {o : Res α} {f : α → State → Res β} (h : RunsWith s o)
    (k : ∀ a t, RunsWith t (f a t)) : RunsWith s (Machine.thenWith o f) := by
  cases o with
  | next p => exact (k p.1 p.2).of_kept h
  | fault r => exact h
  | refused r => exact h

/-! ### Checked reads, whoever reports -/

section
variable {report : Reporter} (hr : ∀ k a s, Runs s (report k a s))
include hr

theorem runs_checkBy (k : Permission) (a : Addr) (s : State) : Runs s (checkBy report k a s) := by
  unfold checkBy
  split
  · exact Kept.refl s
  · exact hr k a s

theorem runs_readByteBy (a : Addr) (s : State) : RunsWith s (readByteBy report a s) :=
  (runs_checkBy hr _ _ s).thenGive fun t => Kept.refl t

theorem runs_readWordBy (seg off : Word) (s : State) : RunsWith s (readWordBy report seg off s) :=
  (runs_readByteBy hr _ s).thenGive fun _ t => (runs_readByteBy hr _ t).thenGive fun _ u => Kept.refl u

theorem runs_popBy (s : State) : RunsWith s (popBy report s) :=
  (runs_readWordBy hr _ _ s).thenGive fun _ t => kept_setReg t _ _

theorem runs_iretBy (s : State) : Runs s (iretBy report s) :=
  (runs_popBy hr s).thenWith fun v t => Runs.of_kept (kept_setIp t v) ((runs_popBy hr _).thenWith fun v t =>
    Runs.of_kept (kept_setSReg t .cs v) ((runs_popBy hr _).thenWith fun v t => kept_setFlags16 t v))

/-! ### The host -/

theorem runs_hostAct (a : HostAct) (s : State) : Runs s (hostAct report s a) := by
  cases a with
  | setReg r v => exact kept_setReg s r v
  | setReg8 r v => exact kept_setReg8 s r v
  | setSReg r v => exact kept_setSReg s r v
  | setIp v => exact kept_setIp s v
  | setFlags v => exact kept_setFlags16 s v
  | setFlag f b => exact kept_setFlag s f b
  | poke a v => exact kept_poke s a v
  | applyPermission start count mask => exact kept_applyPermission mask count start s
  | removePermission start count mask => exact kept_removePermission mask count start s
  | pop16 => exact (runs_popBy hr s).thenWith (f := fun _ t => .next t) fun _ t => Kept.refl t
  | iret => exact runs_iretBy hr s

theorem runs_hostActs (acts : List HostAct) (s : State) : Runs s (hostActs report acts s) := by
  induction acts generalizing s with
  | nil => exact Kept.refl s
  | cons a acts ih => exact (runs_hostAct hr a s).thenDo ih

end

/-- A call uses up the next reply of the script. -/
theorem kept_told (s : State) (c : HostCall) : Kept s (s.told c) := by
  refine ⟨id, id, id, id, rfl, rfl, rfl, ?_⟩
  show ∃ used, s.host = used ++ s.host.tail
  cases s.host with
  | nil => exact ⟨[], rfl⟩
  | cons r rest => exact ⟨[r], rfl⟩

theorem kept_heard (s : State) (c : HostCall) : Kept s (s.heard c) := by
  unfold State.heard
  split
  · exact (kept_told s c).trans (kept_drawn _)
  · exact kept_told s c

/-- A reply that does not return is one of the script's, or of what the host does at an interrupt past it. -/
theorem mayStop_of_reply {s : State} {c : HostCall} (h : (s.replyTo c).returns = false) : MayStop s := by
  unfold State.replyTo at h
  split at h
  · rename_i hh
    exact .inl ⟨_, by simp [hh], h⟩
  · split at h
    · refine .inr fun r hr => ?_
      rw [hr] at h
      exact h
    · cases h

theorem runs_callHostWith (bound : Nat) (c : HostCall) (s : State) : Runs s (callHostWith bound c s) := by
  induction bound generalizing c s with
  | zero => exact kept_told s c
  | succ n ih =>
    have h := (runs_hostActs (report := fun k a => callHostWith n (.invalidMemoryAccess a k.mask)) (fun k a s => ih _ s)
      (s.replyTo c).acts (s.heard c)).of_kept (kept_heard s c)
    unfold callHostWith
    cases ho : hostActs (fun k a => callHostWith n (.invalidMemoryAccess a k.mask)) (s.replyTo c).acts (s.heard c) with
    | next t =>
      rw [ho] at h
      show Runs s (if (s.replyTo c).returns then .next t else .fault (.hostStopped c t))
      split
      · exact h
      · exact ⟨mayStop_of_reply (by simpa using ‹¬(s.replyTo c).returns = true›), c, t, rfl, h⟩
    | fault f => rw [ho] at h; exact h
    | refused r => rw [ho] at h; exact h

/-- A call of the host: what its acts do, or the run ends (60_exceptions.md R609; 40_pipeline.md R231). -/
theorem runs_callHost (c : HostCall) (s : State) : Runs s (callHost c s) := runs_callHostWith _ c s

theorem runs_report (k : Permission) (a : Addr) (s : State) : Runs s (report k a s) := runs_callHost _ s

theorem runs_portRead (c : HostCall) (s : State) : RunsWith s (portRead c s) := by
  refine (runs_callHost c s).thenGive fun t => ?_
  split
  · exact Kept.refl t
  · exact kept_drawn t

theorem kept_haltCall (s : State) : Kept s (haltCall s) := by
  have h := runs_callHost .halt s
  unfold haltCall
  cases ho : callHost .halt s with
  | next t => rw [ho] at h; exact h
  | fault f =>
    rw [ho] at h
    obtain ⟨_, c, t, rfl, k⟩ := h
    exact k
  | refused r => rw [ho] at h; exact h.elim

/-! ### Accesses and the stack -/

theorem runs_checkAccess (k : Permission) (a : Addr) (s : State) : Runs s (checkAccess k a s) :=
  runs_checkBy runs_report k a s

theorem runs_readByte (a : Addr) (s : State) : RunsWith s (readByte a s) :=
  (runs_checkAccess _ _ _).thenGive fun t => Kept.refl t

theorem runs_writeByte (a : Addr) (v : Byte) (s : State) : Runs s (writeByte a v s) :=
  (runs_checkAccess _ _ _).thenDo fun t => kept_poke t a v

theorem runs_fetchByte (a : Addr) (s : State) : RunsWith s (fetchByte a s) :=
  (runs_checkAccess _ _ _).thenGive fun t => Kept.refl t

theorem runs_memRead8 (seg off : Word) (s : State) : RunsWith s (memRead8 seg off s) := runs_readByte _ s

theorem runs_memRead16 (seg off : Word) (s : State) : RunsWith s (memRead16 seg off s) :=
  runs_readWordBy runs_report seg off s

theorem runs_memReadFar (seg off : Word) (s : State) : RunsWith s (memReadFar seg off s) :=
  (runs_memRead16 _ _ s).thenGive fun _ t => (runs_memRead16 _ _ t).thenGive fun _ u => Kept.refl u

theorem runs_memWrite8 (seg off : Word) (v : Byte) (s : State) : Runs s (memWrite8 seg off v s) := runs_writeByte _ v s

theorem runs_memWrite16 (seg off : Word) (v : Word) (s : State) : Runs s (memWrite16 seg off v s) :=
  (runs_writeByte _ _ s).thenDo fun t => runs_writeByte _ _ t

theorem runs_push16 (v : Word) (s : State) : Runs s (push16 v s) := (runs_memWrite16 _ _ _ _).of_kept (kept_setReg s _ _)

theorem runs_pop16 (s : State) : RunsWith s (pop16 s) := runs_popBy runs_report s

/-! ### Taking an interrupt and returning from one -/

theorem runs_interrupt (n : Byte) (s : State) : Runs s (interrupt n s) :=
  (runs_push16 _ s).thenDo fun t => (runs_push16 _ t).thenDo fun t => (runs_push16 _ t).thenDo fun t =>
    Runs.of_kept ((kept_setFlag t .TF false).trans (kept_setFlag _ .IF false))
      ((runs_memReadFar _ _ _).thenWith fun p u =>
        Runs.of_kept ((kept_setIp u p.1).trans ((kept_setSReg _ .cs p.2).trans ((kept_markRaised _).trans (kept_setRunState _ _))))
          ((runs_callHost _ _).thenDo fun v => kept_setRunState v _))

theorem runs_returnFromInterrupt (s : State) : Runs s (returnFromInterrupt s) := runs_iretBy runs_report s

theorem runs_divideFault (s : State) : Runs s (divideFault s) := (runs_interrupt 0 _).of_kept (kept_freeFlags s _)

/-! ### Operands -/

theorem runs_readLoc8 (l : Loc Reg8) (s : State) : RunsWith s (readLoc8 l s) := by
  cases l with
  | reg r => exact Kept.refl s
  | mem seg off => exact runs_memRead8 seg off s

theorem runs_readLoc16 (l : Loc Reg16) (s : State) : RunsWith s (readLoc16 l s) := by
  cases l with
  | reg r => exact Kept.refl s
  | mem seg off => exact runs_memRead16 seg off s

theorem runs_writeLoc8 (l : Loc Reg8) (v : Byte) (s : State) : Runs s (writeLoc8 l v s) := by
  cases l with
  | reg r => exact kept_setReg8 s r v
  | mem seg off => exact runs_memWrite8 seg off v s

theorem runs_writeLoc16 (l : Loc Reg16) (v : Word) (s : State) : Runs s (writeLoc16 l v s) := by
  cases l with
  | reg r => exact kept_setReg s r v
  | mem seg off => exact runs_memWrite16 seg off v s

theorem runs_readRm8 (e : Rm8) (s : State) : RunsWith s (readRm8 e s) := runs_readLoc8 _ s

theorem runs_readRm16 (e : Rm16) (s : State) : RunsWith s (readRm16 e s) := runs_readLoc16 _ s

theorem runs_readFar (m : MemOp) (s : State) : RunsWith s (readFar m s) := runs_memReadFar _ _ s

theorem runs_modifyRm8 (e : Rm8) {f : Byte → State → Byte × State} (hf : ∀ v t, Kept t (f v t).2) (s : State) :
    Runs s (modifyRm8 e f s) :=
  (runs_readRm8 e s).thenWith fun v t => (runs_writeLoc8 _ _ _).of_kept (hf v t)

theorem runs_modifyRm16 (e : Rm16) {f : Word → State → Word × State} (hf : ∀ v t, Kept t (f v t).2) (s : State) :
    Runs s (modifyRm16 e f s) :=
  (runs_readRm16 e s).thenWith fun v t => (runs_writeLoc16 _ _ _).of_kept (hf v t)

/-! ### Flag computations and the two-operand forms -/

theorem kept_logicFlags {w : Nat} (r : BitVec w) (s : State) : Kept s (logicFlags r s) :=
  (kept_mapFlags s fun _ h => maskFlags_putSZP _ (maskFlags_putFlag _ _ (maskFlags_putFlag _ _ h))).trans (kept_freeFlag _ _)

theorem kept_aluApply {w : Nat} (op : AluOp) (a b : BitVec w) (s : State) : Kept s (aluApply op a b s).2 := by
  cases op with
  | add | adc => exact kept_mapFlags s fun _ h => maskFlags_addFlags _ _ _ h
  | sub | sbb | cmp => exact kept_mapFlags s fun _ h => maskFlags_subFlags _ _ _ h
  | and | or | xor | test => exact kept_logicFlags _ s

theorem runs_aluRm8 (op : AluOp) (e : Rm8) (src : State → Byte) (s : State) : Runs s (aluRm8 op e src s) := by
  refine (runs_readRm8 e s).thenWith fun a t => ?_
  dsimp only
  split
  · exact (runs_writeLoc8 _ _ _).of_kept (kept_aluApply op a _ t)
  · exact kept_aluApply op a _ t

theorem runs_aluRm16 (op : AluOp) (e : Rm16) (src : State → Word) (s : State) : Runs s (aluRm16 op e src s) := by
  refine (runs_readRm16 e s).thenWith fun a t => ?_
  dsimp only
  split
  · exact (runs_writeLoc16 _ _ _).of_kept (kept_aluApply op a _ t)
  · exact kept_aluApply op a _ t

theorem runs_aluReg8 (op : AluOp) (g : Reg8) (e : Rm8) (s : State) : Runs s (aluReg8 op g e s) := by
  refine (runs_readRm8 e s).thenWith fun b t => ?_
  dsimp only
  split
  · exact (kept_aluApply op _ b t).trans (kept_setReg8 _ _ _)
  · exact kept_aluApply op _ b t

theorem runs_aluReg16 (op : AluOp) (g : Reg16) (e : Rm16) (s : State) : Runs s (aluReg16 op g e s) := by
  refine (runs_readRm16 e s).thenWith fun b t => ?_
  dsimp only
  split
  · exact (kept_aluApply op _ b t).trans (kept_setReg _ _ _)
  · exact kept_aluApply op _ b t

theorem runs_aluAcc8 (op : AluOp) (imm : Byte) (s : State) : Runs s (aluAcc8 op imm s) := by
  unfold aluAcc8
  dsimp only
  split
  · exact (kept_aluApply op _ imm s).trans (kept_setReg8 _ _ _)
  · exact kept_aluApply op _ imm s

theorem runs_aluAcc16 (op : AluOp) (imm : Word) (s : State) : Runs s (aluAcc16 op imm s) := by
  unfold aluAcc16
  dsimp only
  split
  · exact (kept_aluApply op _ imm s).trans (kept_setReg _ _ _)
  · exact kept_aluApply op _ imm s

/-! ### Fetching -/

theorem runs_fetchNext (s : State) : RunsWith s (fetchNext s) := (runs_fetchByte _ s).thenGive fun b t => kept_stepPast t b

theorem runs_fetch8 (s : State) : RunsWith s (fetch8 s) :=
  (runs_fetchNext s).thenGive fun _ t => (runs_callHost _ t).thenGive fun u => Kept.refl u

theorem runs_fetch16 (s : State) : RunsWith s (fetch16 s) :=
  (runs_fetchNext s).thenGive fun _ t => (runs_fetchNext t).thenGive fun _ u => (runs_callHost _ u).thenGive fun v => Kept.refl v

theorem runs_fetchField (n : Nat) (s : State) : RunsWith s (fetchField n s) := by
  match n with
  | 0 => exact Kept.refl s
  | 1 =>
    show RunsWith s (thenWith (fetch8 s) fun b t => .next (zext16 b, t))
    exact (runs_fetch8 s).thenGive fun _ t => Kept.refl t
  | _ + 2 => exact runs_fetch16 s

theorem runs_fetchModrm (op : Byte) (s : State) : RunsWith s (fetchModrm op s) := by
  unfold fetchModrm
  split
  · exact runs_fetch8 s
  · exact Kept.refl s

theorem kept_opcodeFetched (s : State) (op : Byte) : Kept s (s.opcodeFetched op) := by
  unfold State.opcodeFetched
  split
  · exact .refl s
  · exact .of_fields rfl rfl rfl rfl rfl rfl rfl

theorem kept_latchEa (s : State) (op modrm : Byte) (disp : Word) : Kept s (s.latchEa op modrm disp) := by
  unfold State.latchEa
  split
  · exact .of_fields rfl rfl rfl rfl rfl rfl rfl
  · exact .refl s

theorem runs_fetchBody (s : State) : RunsWith s (fetchBody s) :=
  (runs_fetch8 s).thenGive fun op t => RunsWith.of_kept (kept_opcodeFetched t op) ((runs_fetchModrm op _).thenGive fun modrm t =>
    (runs_fetchField _ t).thenGive fun disp t => RunsWith.of_kept (kept_latchEa t op modrm disp)
      ((runs_fetchField _ _).thenGive fun _ t => (runs_fetchField _ t).thenGive fun _ t => Kept.refl t))

end Sys2Proof.Machine
end

