-- ==== Sys2Proof/Laws/HostCalls.lean ====
section
/-! SUPPORT. The equation of a host call: its bound never bites, so a call is what its reply does, each report made inside it being a call
of its own (60_exceptions.md R586, R609), and then the run goes on or ends. -/

namespace Sys2Proof.Machine

theorem Runs.congr {α : Type} {s : State} {o : Out} {f g : State → Host.Outcome α Fault Refusal} (h : Runs s o)
    (k : ∀ t, Kept s t → f t = g t) : Machine.thenDo o f = Machine.thenDo o g := by
  cases o with
  | next t => exact k t h
  | fault f => rfl
  | refused r => rfl

theorem RunsWith.congr {α β : Type} {s : State} {o : Res α} {f g : α → State → Host.Outcome β Fault Refusal} (h : RunsWith s o)
    (k : ∀ a t, Kept s t → f a t = g a t) : Machine.thenWith o f = Machine.thenWith o g := by
  cases o with
  | next p => exact k p.1 p.2 h
  | fault f => rfl
  | refused r => rfl

/-! ### Two reporters that agree on the states an operation reaches -/

section
variable {r₁ r₂ : Reporter} {P : State → Prop} (hr : ∀ k a s, Runs s (r₁ k a s)) (hP : ∀ {s t}, Kept s t → P s → P t)
  (he : ∀ k a s, P s → r₁ k a s = r₂ k a s)
include he

theorem checkBy_congr (k : Permission) (a : Addr) {s : State} (h : P s) : checkBy r₁ k a s = checkBy r₂ k a s := by
  unfold checkBy
  split
  · rfl
  · exact he k a s h

theorem readByteBy_congr (a : Addr) {s : State} (h : P s) : readByteBy r₁ a s = readByteBy r₂ a s := by
  rw [readByteBy, readByteBy, checkBy_congr he _ _ h]

include hr hP

theorem readWordBy_congr (seg off : Word) {s : State} (h : P s) : readWordBy r₁ seg off s = readWordBy r₂ seg off s := by
  rw [readWordBy, readWordBy, ← readByteBy_congr he _ h]
  exact (runs_readByteBy hr _ s).congr fun _ t k => by rw [readByteBy_congr he _ (hP k h)]

theorem popBy_congr {s : State} (h : P s) : popBy r₁ s = popBy r₂ s := by
  rw [popBy, popBy, readWordBy_congr hr hP he _ _ h]

theorem iretBy_congr {s : State} (h : P s) : iretBy r₁ s = iretBy r₂ s := by
  rw [iretBy, iretBy, ← popBy_congr hr hP he h]
  refine (runs_popBy hr s).congr fun v t k => ?_
  have ht := hP (k.trans (kept_setIp t v)) h
  rw [← popBy_congr hr hP he ht]
  refine (runs_popBy hr _).congr fun w u l => ?_
  rw [popBy_congr hr hP he (hP (l.trans (kept_setSReg u .cs w)) ht)]

theorem hostAct_congr (a : HostAct) {s : State} (h : P s) : hostAct r₁ s a = hostAct r₂ s a := by
  cases a with
  | pop16 => simp only [hostAct, popBy_congr hr hP he h]
  | iret => exact iretBy_congr hr hP he h
  | _ => rfl

theorem hostActs_congr (acts : List HostAct) {s : State} (h : P s) : hostActs r₁ acts s = hostActs r₂ acts s := by
  induction acts generalizing s with
  | nil => rfl
  | cons a acts ih =>
    rw [hostActs, hostActs, ← hostAct_congr hr hP he a h]
    exact (runs_hostAct hr a s).congr fun t k => ih (hP k h)

end

/-! ### The bound -/

/-- The bound is large enough for a call: a reply of the script for each call inside it, or nothing left to do. -/
def Enough (bound : Nat) (c : HostCall) (s : State) : Prop := s.host.length < bound ∨ (s.host = [] ∧ c.isInterrupt = false)

theorem Kept.length_host {s t : State} (h : Kept s t) : t.host.length ≤ s.host.length := by
  obtain ⟨used, hu⟩ := h.host
  rw [hu, List.length_append]
  omega

theorem heard_host (s : State) (c : HostCall) : (s.heard c).host = s.host.tail := by
  unfold State.heard
  split <;> rfl

/-- Past the script a call other than `interrupt` does nothing. -/
theorem callHostWith_passive {c : HostCall} {s : State} (h : s.host = []) (hc : c.isInterrupt = false) (n : Nat) :
    callHostWith n c s = .next (s.told c) := by
  cases n with
  | zero => rfl
  | succ n => simp [callHostWith, State.replyTo, h, hc, HostReply.passive, hostActs, State.heard, thenDo]

theorem callHostWith_bound (n : Nat) : ∀ (m : Nat) (c : HostCall) (s : State), Enough n c s → Enough m c s →
    callHostWith n c s = callHostWith m c s := by
  induction n with
  | zero =>
    intro m c s hn _
    rcases hn with hn | ⟨h, hc⟩
    · omega
    · rw [callHostWith_passive h hc, callHostWith_passive h hc]
  | succ n ih =>
    intro m c s hn hm
    cases m with
    | zero =>
      rcases hm with hm | ⟨h, hc⟩
      · omega
      · rw [callHostWith_passive h hc, callHostWith_passive h hc]
    | succ m =>
      have enough : ∀ (b : Nat) (k : Permission) (a : Addr) (t : State), Enough (b + 1) c s → t.host.length ≤ s.host.length - 1 →
          Enough b (.invalidMemoryAccess a k.mask) t := by
        intro b k a t hb ht
        rcases hb with hb | ⟨h, _⟩
        · cases hs : t.host with
          | nil => exact .inr ⟨hs, rfl⟩
          | cons r rest =>
            refine .inl ?_
            have : 0 < t.host.length := by simp [hs]
            omega
        · refine .inr ⟨?_, rfl⟩
          have : t.host.length = 0 := by simpa [h] using ht
          exact List.length_eq_zero_iff.1 this
      unfold callHostWith
      rw [hostActs_congr (P := fun t => t.host.length ≤ s.host.length - 1) (fun k a s => runs_callHostWith _ _ s)
        (fun k h => le_trans k.length_host h) (fun k a t ht => ih m _ t (enough n k a t hn ht) (enough m k a t hm ht))]
      rw [heard_host, List.length_tail]

/-- A call of the host is what its reply does, and then the run goes on, or ends with the state at that point (60_exceptions.md R609;
40_pipeline.md R231). -/
theorem callHost_eq (c : HostCall) (s : State) :
    callHost c s = thenDo (hostActs report (s.replyTo c).acts (s.heard c)) fun t =>
      if (s.replyTo c).returns then .next t else .fault (.hostStopped c t) := by
  rw [callHost, callHostWith]
  rw [hostActs_congr (P := fun t => t.host.length ≤ s.host.length - 1) (r₂ := report) (fun k a s => runs_callHostWith _ _ s)
    (fun k h => le_trans k.length_host h)]
  · intro k a t ht
    refine callHostWith_bound _ _ _ _ ?_ (.inl (Nat.lt_succ_self _))
    cases hs : t.host with
    | nil => exact .inr ⟨hs, rfl⟩
    | cons r rest =>
      refine .inl ?_
      have : 0 < t.host.length := by simp [hs]
      omega
  · rw [heard_host, List.length_tail]

end Sys2Proof.Machine
end

