-- ==== Sys2Proof/Laws/Chain.lean ====
section
/-! SUPPORT. The bound on a prefix chain never bites: a larger bound gives the same step, so a chain that spends it has no end
(40_pipeline.md R205; log entry 9). -/

namespace Sys2Proof.Machine

/-! ### The prefix bytes -/

/-- The opcodes of the prefix rows (30_encoding.md R131). -/
def prefixBytes : List Nat := [0x26, 0x2E, 0x36, 0x3E, 0xF0, 0xF2, 0xF3]

section
variable (b : Body)

theorem isPrefix_group1Eb : isPrefix (group1Eb b) = false := by unfold group1Eb; (repeat' split) <;> rfl
theorem isPrefix_group1EvIw : isPrefix (group1EvIw b) = false := by unfold group1EvIw; (repeat' split) <;> rfl
theorem isPrefix_group1EvSib : isPrefix (group1EvSib b) = false := by unfold group1EvSib; (repeat' split) <;> rfl
theorem isPrefix_movSreg : isPrefix (movSreg b) = false := by unfold movSreg; (repeat' split) <;> rfl
theorem isPrefix_popGroup : isPrefix (popGroup b) = false := by unfold popGroup; (repeat' split) <;> rfl
theorem isPrefix_movGroupEb : isPrefix (movGroupEb b) = false := by unfold movGroupEb; (repeat' split) <;> rfl
theorem isPrefix_movGroupEv : isPrefix (movGroupEv b) = false := by unfold movGroupEv; (repeat' split) <;> rfl
theorem isPrefix_group2Eb1 : isPrefix (group2Eb1 b) = false := by unfold group2Eb1; (repeat' split) <;> rfl
theorem isPrefix_group2Ev1 : isPrefix (group2Ev1 b) = false := by unfold group2Ev1; (repeat' split) <;> rfl
theorem isPrefix_group2EbCl : isPrefix (group2EbCl b) = false := by unfold group2EbCl; (repeat' split) <;> rfl
theorem isPrefix_group2EvCl : isPrefix (group2EvCl b) = false := by unfold group2EvCl; (repeat' split) <;> rfl
theorem isPrefix_group3Eb : isPrefix (group3Eb b) = false := by unfold group3Eb; (repeat' split) <;> rfl
theorem isPrefix_group3Ev : isPrefix (group3Ev b) = false := by unfold group3Ev; (repeat' split) <;> rfl
theorem isPrefix_group4 : isPrefix (group4 b) = false := by unfold group4; (repeat' split) <;> rfl
theorem isPrefix_group5 : isPrefix (group5 b) = false := by unfold group5; (repeat' split) <;> rfl

/-- The instruction of an opcode is a prefix where the opcode is a prefix byte. -/
theorem isPrefix_instr : isPrefix b.instr = prefixBytes.contains b.op.toNat := by
  have h : b.op.toNat < 256 := b.op.isLt
  unfold Body.instr
  generalize b.op.toNat = n at h
  interval_cases n <;> first
    | rfl
    | exact isPrefix_group1Eb b
    | exact isPrefix_group1EvIw b
    | exact isPrefix_group1EvSib b
    | exact isPrefix_movSreg b
    | exact isPrefix_popGroup b
    | exact isPrefix_movGroupEb b
    | exact isPrefix_movGroupEv b
    | exact isPrefix_group2Eb1 b
    | exact isPrefix_group2Ev1 b
    | exact isPrefix_group2EbCl b
    | exact isPrefix_group2EvCl b
    | exact isPrefix_group3Eb b
    | exact isPrefix_group3Ev b
    | exact isPrefix_group4 b
    | exact isPrefix_group5 b
    | (change isPrefix (if _ then _ else _) = false; split <;> rfl)

end

/-! ### One prefix byte -/

/-- The fields after the opcode. -/
def fetchRest (op : Byte) (s : State) : Res Body :=
  thenWith (fetchModrm op (s.opcodeFetched op)) fun modrm s =>
  thenWith (fetchField (dispLenOf op modrm) s) fun disp s =>
  thenWith (fetchField (immLen1 op modrm) (s.latchEa op modrm disp)) fun imm s =>
  thenWith (fetchField (immLen2 op modrm) s) fun seg s => .next ({ op, modrm, disp, imm, seg }, s)

theorem fetchBody_eq (s : State) : fetchBody s = thenWith (fetch8 s) fetchRest := rfl

theorem runs_fetchRest (op : Byte) (s : State) : RunsWith s (fetchRest op s) :=
  RunsWith.of_kept (kept_opcodeFetched s op) ((runs_fetchModrm op _).thenGive fun modrm t =>
    (runs_fetchField _ t).thenGive fun disp t => RunsWith.of_kept (kept_latchEa t op modrm disp)
      ((runs_fetchField _ _).thenGive fun _ t => (runs_fetchField _ t).thenGive fun _ t => Kept.refl t))

/-- The fields fetched after an opcode are that opcode's. -/
theorem fetchRest_op {op : Byte} {s t : State} {b : Body} (h : fetchRest op s = .next (b, t)) : b.op = op := by
  obtain ⟨_, _, _, h⟩ := thenWith_eq_next h
  obtain ⟨_, _, _, h⟩ := thenWith_eq_next h
  obtain ⟨_, _, _, h⟩ := thenWith_eq_next h
  obtain ⟨_, _, _, h⟩ := thenWith_eq_next h
  cases h
  rfl

/-- A prefix byte has no further fields. -/
theorem fetchRest_prefix {op : Byte} (h : prefixBytes.contains op.toNat = true) (s : State) :
    fetchRest op s = .next ({ op, modrm := 0, disp := 0, imm := 0, seg := 0 }, s) := by
  have : op = 0x26 ∨ op = 0x2E ∨ op = 0x36 ∨ op = 0x3E ∨ op = 0xF0 ∨ op = 0xF2 ∨ op = 0xF3 := by
    simpa [prefixBytes, ← BitVec.toNat_inj] using h
  rcases this with rfl | rfl | rfl | rfl | rfl | rfl | rfl <;> rfl

/-- A prefix sets transient fields only. -/
theorem exec_prefix {i : Instr} (h : isPrefix i = true) (s : State) :
    ∃ t, exec i s = .next t ∧ t.host = s.host ∧ t.mem = s.mem ∧ t.sregs = s.sregs ∧ t.ip = s.ip := by
  cases i with
  | segEs | segCs | segSs | segDs | lock | repne | rep => exact ⟨_, rfl, rfl, rfl, rfl, rfl⟩
  | _ => cases h

/-- Two bounds agree where they agree on what follows a prefix. -/
theorem runChain_congr {n m : Nat} {s : State}
    (h : ∀ op t b u v, fetch8 s = .next (op, t) → fetchRest op t = .next (b, u) → isPrefix b.instr = true → exec b.instr u = .next v →
      runChain n v = runChain m v) : runChain (n + 1) s = runChain (m + 1) s := by
  unfold runChain
  rw [fetchBody_eq]
  cases hf : fetch8 s with
  | fault f => rfl
  | refused r => rfl
  | next p =>
    obtain ⟨op, t⟩ := p
    rw [thenWith_next]
    cases hr : fetchRest op t with
    | fault f => rfl
    | refused r => rfl
    | next q =>
      obtain ⟨b, u⟩ := q
      rw [thenWith_next, thenWith_next]
      cases hp : isPrefix b.instr with
      | false => rfl
      | true =>
        obtain ⟨v, hv, _⟩ := exec_prefix hp u
        rw [if_pos rfl, if_pos rfl, hv]
        exact h op t b u v hf hr hp hv

/-! ### Past the script nothing changes but IP -/

/-- The byte at an offset of the code segment is a prefix byte. -/
def State.prefixAt (s : State) (off : Word) : Bool := prefixBytes.contains (s.peek (lin (s.sreg .cs) off)).toNat

/-- Past the script a fetched byte moves IP by one; the code and the script are as they were. -/
theorem fetch8_noScript {s : State} (hs : s.host = []) :
    ∃ t, fetch8 s = .next (s.peek (lin (s.sreg .cs) s.ip), t) ∧ t.host = [] ∧ t.mem = s.mem ∧ t.sregs = s.sregs ∧ t.ip = s.ip + 1 := by
  have hq : Quiet s := by simp [Quiet, hs]
  let b := s.peek (lin (s.sreg .cs) s.ip)
  let c := s.checked .execute (lin (s.sreg .cs) s.ip)
  let u := c.stepPast b
  have hu : Quiet u := (quiet_of_host (t := u) (s := c) rfl).2 (quiet_checked _ _ hq)
  refine ⟨u.told (.fetched8 b u.instructionCount), ?_, ?_, ?_, ?_, ?_⟩
  · rw [fetch8, fetchNext, fetchByte_quiet _ hq, thenWith_next, thenWith_next, callHost_quiet _ hu, thenDo_next]
  · show c.host.tail = []
    unfold c State.checked
    split <;> simp [State.told, State.logCall, hs]
  · exact State.checked_mem ..
  · exact State.checked_sregs ..
  · exact congrArg (· + 1) (State.checked_ip ..)

/-- Past the script a prefix byte moves IP by one; the code and the script are as they were. -/
theorem runChain_prefix {s : State} (hs : s.host = []) (hp : s.prefixAt s.ip = true) :
    ∃ t, (∀ n, runChain (n + 1) s = runChain n t) ∧ t.host = [] ∧ t.ip = s.ip + 1 ∧ ∀ off, t.prefixAt off = s.prefixAt off := by
  obtain ⟨t, hf, hh, hm, hr, hi⟩ := fetch8_noScript hs
  have hb : isPrefix (Body.instr { op := s.peek (lin (s.sreg .cs) s.ip), modrm := 0, disp := 0, imm := 0, seg := 0 }) = true := by
    rw [isPrefix_instr]; exact hp
  obtain ⟨u, he, hh', hm', hr', hi'⟩ := exec_prefix hb t
  refine ⟨u, fun n => ?_, hh'.trans hh, hi'.trans hi, fun off => ?_⟩
  · rw [runChain, fetchBody_eq, hf, thenWith_next, fetchRest_prefix hp, thenWith_next, if_pos hb, he, thenDo_next]
  · simp only [State.prefixAt, State.peek, State.sreg, hm', hm, hr', hr]

/-- Where the next byte is no prefix, the chain ends here, whatever bound is left. -/
theorem runChain_last {s : State} (hs : s.host = []) (hp : s.prefixAt s.ip = false) (n m : Nat) :
    runChain (n + 1) s = runChain (m + 1) s := by
  obtain ⟨t, hf, _⟩ := fetch8_noScript hs
  refine runChain_congr fun op t' b u v hf' hr hb _ => ?_
  rw [hf] at hf'
  cases hf'
  rw [isPrefix_instr, fetchRest_op hr] at hb
  exact absurd hb (by rw [← State.prefixAt, hp]; decide)

/-- Where one of the coming bytes is no prefix, a bound that reaches it is enough. -/
theorem runChain_within {k : Nat} : ∀ {s : State}, s.host = [] → s.prefixAt (s.ip + BitVec.ofNat 16 k) = false →
    ∀ {n m : Nat}, k < n → k < m → runChain n s = runChain m s := by
  induction k with
  | zero =>
    intro s hs hk n m hn hm
    obtain ⟨n, rfl⟩ := Nat.exists_eq_succ_of_ne_zero (Nat.ne_of_gt hn)
    obtain ⟨m, rfl⟩ := Nat.exists_eq_succ_of_ne_zero (Nat.ne_of_gt hm)
    exact runChain_last hs (by simpa using hk) n m
  | succ k ih =>
    intro s hs hk n m hn hm
    obtain ⟨n, rfl⟩ := Nat.exists_eq_succ_of_ne_zero (Nat.ne_of_gt (Nat.zero_lt_of_lt hn))
    obtain ⟨m, rfl⟩ := Nat.exists_eq_succ_of_ne_zero (Nat.ne_of_gt (Nat.zero_lt_of_lt hm))
    cases hp : s.prefixAt s.ip with
    | false => exact runChain_last hs hp n m
    | true =>
      obtain ⟨t, ht, hh, hi, hc⟩ := runChain_prefix hs hp
      rw [Nat.succ_eq_add_one, Nat.succ_eq_add_one, ht, ht]
      refine ih hh ?_ (by omega) (by omega)
      rw [hc, hi, BitVec.add_assoc]
      rw [Nat.add_comm k 1, BitVec.ofNat_add] at hk
      exact hk

/-- A whole code segment of prefix bytes is a chain without end. -/
theorem runChain_endless {n : Nat} : ∀ {s : State}, s.host = [] → (∀ off, s.prefixAt off = true) → runChain n s = .fault .endlessPrefixes := by
  induction n with
  | zero => intros; rfl
  | succ n ih =>
    intro s hs hp
    obtain ⟨t, ht, hh, _, hc⟩ := runChain_prefix hs (hp _)
    rw [ht]
    exact ih hh fun off => by rw [hc, hp]

/-! ### The bound -/

/-- Past the script 0x10001 bytes are enough for every chain that ends. -/
theorem runChain_bound_noScript {s : State} (hs : s.host = []) {n m : Nat} (hn : 0x10000 < n) (hm : 0x10000 < m) :
    runChain n s = runChain m s := by
  by_cases h : ∀ off, s.prefixAt off = true
  · rw [runChain_endless hs h, runChain_endless hs h]
  · obtain ⟨off, ho⟩ := not_forall.1 h
    have hk : (off - s.ip).toNat < 0x10000 := (off - s.ip).isLt
    refine runChain_within (k := (off - s.ip).toNat) hs ?_ (by omega) (by omega)
    rw [BitVec.ofNat_toNat, BitVec.setWidth_eq, BitVec.add_comm, BitVec.sub_add_cancel]
    simpa using ho

/-- Each prefix byte uses up a reply of the script, while any is left. -/
theorem fetch8_host {s t : State} {op : Byte} (h : fetch8 s = .next (op, t)) : t.host.length ≤ s.host.length - 1 := by
  obtain ⟨b, u, h1, h⟩ := thenWith_eq_next h
  obtain ⟨v, h2, h⟩ := thenDo_eq_next h
  cases h
  have hu := runs_fetchNext s
  rw [h1] at hu
  have := Kept.length_host hu
  rw [callHost_eq] at h2
  obtain ⟨w, h3, h2⟩ := thenDo_eq_next h2
  have hw := runs_hostActs runs_report (u.replyTo (.fetched8 op u.instructionCount)).acts (u.heard (.fetched8 op u.instructionCount))
  rw [h3] at hw
  have h4 := Kept.length_host hw
  rw [heard_host, List.length_tail] at h4
  split at h2
  · cases h2
    simp only at this
    omega
  · cases h2

/-- The bound of a chain never bites: a larger one gives the same outcome. -/
theorem runChain_bound {k : Nat} : ∀ {s : State}, s.host.length ≤ k → ∀ {n m : Nat}, k + 0x10000 < n → k + 0x10000 < m →
    runChain n s = runChain m s := by
  induction k with
  | zero => exact fun h _ _ hn hm => runChain_bound_noScript (List.length_eq_zero_iff.1 (Nat.le_zero.1 h)) (by omega) (by omega)
  | succ k ih =>
    intro s hs n m hn hm
    obtain ⟨n, rfl⟩ := Nat.exists_eq_succ_of_ne_zero (Nat.ne_of_gt (Nat.zero_lt_of_lt hn))
    obtain ⟨m, rfl⟩ := Nat.exists_eq_succ_of_ne_zero (Nat.ne_of_gt (Nat.zero_lt_of_lt hm))
    refine runChain_congr fun op t b u v hf hr hp hv => ih ?_ (by omega) (by omega)
    obtain ⟨w, hw, hh, _⟩ := exec_prefix hp u
    rw [hv] at hw
    cases hw
    have h1 := fetch8_host hf
    have h2 := runs_fetchRest op t
    rw [hr] at h2
    have h3 := Kept.length_host h2
    rw [hh]
    simp only at h3
    omega

/-- A step is the step with any larger bound on its prefix chain: there is no limit on the number of prefix bytes (40_pipeline.md
R205). -/
theorem step_eq_of_bound {s : State} (hs : s.runState = .idle) {n : Nat} (hn : chainBound s ≤ n) :
    step s = thenWith (runChain n (beginStep s)) fun i t => endStep (s.flag .TF) i t := by
  unfold step
  rw [hs]
  have : runChain (chainBound s) (beginStep s) = runChain n (beginStep s) :=
    runChain_bound (s := beginStep s) (Nat.le_refl s.host.length) (Nat.lt_succ_self _) (by unfold chainBound at hn; omega)
  exact congrArg (fun o => thenWith o fun i t => endStep (s.flag .TF) i t) this

end Sys2Proof.Machine
end

