-- ==== Sys2Proof/Laws/Exec.lean ====
section
/-! SUPPORT. `exec` of each constructor is that instruction's meaning, so that no proof unfolds the whole of `exec`. -/

namespace Sys2Proof.Machine

variable (s : State)

@[simp] theorem exec_addEbGb (e : Rm8) (g : Reg8) : exec (.addEbGb e g) s = execAddEbGb e g s := rfl
@[simp] theorem exec_addEvGv (e : Rm16) (g : Reg16) : exec (.addEvGv e g) s = execAddEvGv e g s := rfl
@[simp] theorem exec_addGbEb (g : Reg8) (e : Rm8) : exec (.addGbEb g e) s = execAddGbEb g e s := rfl
@[simp] theorem exec_addGvEv (g : Reg16) (e : Rm16) : exec (.addGvEv g e) s = execAddGvEv g e s := rfl
@[simp] theorem exec_addAlIb (imm : Byte) : exec (.addAlIb imm) s = execAddAlIb imm s := rfl
@[simp] theorem exec_addAxIw (imm : Word) : exec (.addAxIw imm) s = execAddAxIw imm s := rfl
@[simp] theorem exec_orEbGb (e : Rm8) (g : Reg8) : exec (.orEbGb e g) s = execOrEbGb e g s := rfl
@[simp] theorem exec_orEvGv (e : Rm16) (g : Reg16) : exec (.orEvGv e g) s = execOrEvGv e g s := rfl
@[simp] theorem exec_orGbEb (g : Reg8) (e : Rm8) : exec (.orGbEb g e) s = execOrGbEb g e s := rfl
@[simp] theorem exec_orGvEv (g : Reg16) (e : Rm16) : exec (.orGvEv g e) s = execOrGvEv g e s := rfl
@[simp] theorem exec_orAlIb (imm : Byte) : exec (.orAlIb imm) s = execOrAlIb imm s := rfl
@[simp] theorem exec_orAxIw (imm : Word) : exec (.orAxIw imm) s = execOrAxIw imm s := rfl
@[simp] theorem exec_adcEbGb (e : Rm8) (g : Reg8) : exec (.adcEbGb e g) s = execAdcEbGb e g s := rfl
@[simp] theorem exec_adcEvGv (e : Rm16) (g : Reg16) : exec (.adcEvGv e g) s = execAdcEvGv e g s := rfl
@[simp] theorem exec_adcGbEb (g : Reg8) (e : Rm8) : exec (.adcGbEb g e) s = execAdcGbEb g e s := rfl
@[simp] theorem exec_adcGvEv (g : Reg16) (e : Rm16) : exec (.adcGvEv g e) s = execAdcGvEv g e s := rfl
@[simp] theorem exec_adcAlIb (imm : Byte) : exec (.adcAlIb imm) s = execAdcAlIb imm s := rfl
@[simp] theorem exec_adcAxIw (imm : Word) : exec (.adcAxIw imm) s = execAdcAxIw imm s := rfl
@[simp] theorem exec_sbbEbGb (e : Rm8) (g : Reg8) : exec (.sbbEbGb e g) s = execSbbEbGb e g s := rfl
@[simp] theorem exec_sbbEvGv (e : Rm16) (g : Reg16) : exec (.sbbEvGv e g) s = execSbbEvGv e g s := rfl
@[simp] theorem exec_sbbGbEb (g : Reg8) (e : Rm8) : exec (.sbbGbEb g e) s = execSbbGbEb g e s := rfl
@[simp] theorem exec_sbbGvEv (g : Reg16) (e : Rm16) : exec (.sbbGvEv g e) s = execSbbGvEv g e s := rfl
@[simp] theorem exec_sbbAlIb (imm : Byte) : exec (.sbbAlIb imm) s = execSbbAlIb imm s := rfl
@[simp] theorem exec_sbbAxIw (imm : Word) : exec (.sbbAxIw imm) s = execSbbAxIw imm s := rfl
@[simp] theorem exec_andEbGb (e : Rm8) (g : Reg8) : exec (.andEbGb e g) s = execAndEbGb e g s := rfl
@[simp] theorem exec_andEvGv (e : Rm16) (g : Reg16) : exec (.andEvGv e g) s = execAndEvGv e g s := rfl
@[simp] theorem exec_andGbEb (g : Reg8) (e : Rm8) : exec (.andGbEb g e) s = execAndGbEb g e s := rfl
@[simp] theorem exec_andGvEv (g : Reg16) (e : Rm16) : exec (.andGvEv g e) s = execAndGvEv g e s := rfl
@[simp] theorem exec_andAlIb (imm : Byte) : exec (.andAlIb imm) s = execAndAlIb imm s := rfl
@[simp] theorem exec_andAxIw (imm : Word) : exec (.andAxIw imm) s = execAndAxIw imm s := rfl
@[simp] theorem exec_subEbGb (e : Rm8) (g : Reg8) : exec (.subEbGb e g) s = execSubEbGb e g s := rfl
@[simp] theorem exec_subEvGv (e : Rm16) (g : Reg16) : exec (.subEvGv e g) s = execSubEvGv e g s := rfl
@[simp] theorem exec_subGbEb (g : Reg8) (e : Rm8) : exec (.subGbEb g e) s = execSubGbEb g e s := rfl
@[simp] theorem exec_subGvEv (g : Reg16) (e : Rm16) : exec (.subGvEv g e) s = execSubGvEv g e s := rfl
@[simp] theorem exec_subAlIb (imm : Byte) : exec (.subAlIb imm) s = execSubAlIb imm s := rfl
@[simp] theorem exec_subAxIw (imm : Word) : exec (.subAxIw imm) s = execSubAxIw imm s := rfl
@[simp] theorem exec_xorEbGb (e : Rm8) (g : Reg8) : exec (.xorEbGb e g) s = execXorEbGb e g s := rfl
@[simp] theorem exec_xorEvGv (e : Rm16) (g : Reg16) : exec (.xorEvGv e g) s = execXorEvGv e g s := rfl
@[simp] theorem exec_xorGbEb (g : Reg8) (e : Rm8) : exec (.xorGbEb g e) s = execXorGbEb g e s := rfl
@[simp] theorem exec_xorGvEv (g : Reg16) (e : Rm16) : exec (.xorGvEv g e) s = execXorGvEv g e s := rfl
@[simp] theorem exec_xorAlIb (imm : Byte) : exec (.xorAlIb imm) s = execXorAlIb imm s := rfl
@[simp] theorem exec_xorAxIw (imm : Word) : exec (.xorAxIw imm) s = execXorAxIw imm s := rfl
@[simp] theorem exec_cmpEbGb (e : Rm8) (g : Reg8) : exec (.cmpEbGb e g) s = execCmpEbGb e g s := rfl
@[simp] theorem exec_cmpEvGv (e : Rm16) (g : Reg16) : exec (.cmpEvGv e g) s = execCmpEvGv e g s := rfl
@[simp] theorem exec_cmpGbEb (g : Reg8) (e : Rm8) : exec (.cmpGbEb g e) s = execCmpGbEb g e s := rfl
@[simp] theorem exec_cmpGvEv (g : Reg16) (e : Rm16) : exec (.cmpGvEv g e) s = execCmpGvEv g e s := rfl
@[simp] theorem exec_cmpAlIb (imm : Byte) : exec (.cmpAlIb imm) s = execCmpAlIb imm s := rfl
@[simp] theorem exec_cmpAxIw (imm : Word) : exec (.cmpAxIw imm) s = execCmpAxIw imm s := rfl
@[simp] theorem exec_incR16 (r : Reg16) : exec (.incR16 r) s = execIncR16 r s := rfl
@[simp] theorem exec_decR16 (r : Reg16) : exec (.decR16 r) s = execDecR16 r s := rfl
@[simp] theorem exec_pushR16 (r : Reg16) : exec (.pushR16 r) s = execPushR16 r s := rfl
@[simp] theorem exec_popR16 (r : Reg16) : exec (.popR16 r) s = execPopR16 r s := rfl
@[simp] theorem exec_inv60 (lo : BitVec 4) : exec (.inv60 lo) s = execInv60 lo s := rfl
@[simp] theorem exec_jo (rel : Byte) : exec (.jo rel) s = execJo rel s := rfl
@[simp] theorem exec_jno (rel : Byte) : exec (.jno rel) s = execJno rel s := rfl
@[simp] theorem exec_jb (rel : Byte) : exec (.jb rel) s = execJb rel s := rfl
@[simp] theorem exec_jnb (rel : Byte) : exec (.jnb rel) s = execJnb rel s := rfl
@[simp] theorem exec_je (rel : Byte) : exec (.je rel) s = execJe rel s := rfl
@[simp] theorem exec_jne (rel : Byte) : exec (.jne rel) s = execJne rel s := rfl
@[simp] theorem exec_jbe (rel : Byte) : exec (.jbe rel) s = execJbe rel s := rfl
@[simp] theorem exec_ja (rel : Byte) : exec (.ja rel) s = execJa rel s := rfl
@[simp] theorem exec_js (rel : Byte) : exec (.js rel) s = execJs rel s := rfl
@[simp] theorem exec_jns (rel : Byte) : exec (.jns rel) s = execJns rel s := rfl
@[simp] theorem exec_jp (rel : Byte) : exec (.jp rel) s = execJp rel s := rfl
@[simp] theorem exec_jnp (rel : Byte) : exec (.jnp rel) s = execJnp rel s := rfl
@[simp] theorem exec_jl (rel : Byte) : exec (.jl rel) s = execJl rel s := rfl
@[simp] theorem exec_jge (rel : Byte) : exec (.jge rel) s = execJge rel s := rfl
@[simp] theorem exec_jle (rel : Byte) : exec (.jle rel) s = execJle rel s := rfl
@[simp] theorem exec_jg (rel : Byte) : exec (.jg rel) s = execJg rel s := rfl
@[simp] theorem exec_addEbIb (e : Rm8) (imm : Byte) : exec (.addEbIb e imm) s = execAddEbIb e imm s := rfl
@[simp] theorem exec_orEbIb (e : Rm8) (imm : Byte) : exec (.orEbIb e imm) s = execOrEbIb e imm s := rfl
@[simp] theorem exec_adcEbIb (e : Rm8) (imm : Byte) : exec (.adcEbIb e imm) s = execAdcEbIb e imm s := rfl
@[simp] theorem exec_sbbEbIb (e : Rm8) (imm : Byte) : exec (.sbbEbIb e imm) s = execSbbEbIb e imm s := rfl
@[simp] theorem exec_andEbIb (e : Rm8) (imm : Byte) : exec (.andEbIb e imm) s = execAndEbIb e imm s := rfl
@[simp] theorem exec_subEbIb (e : Rm8) (imm : Byte) : exec (.subEbIb e imm) s = execSubEbIb e imm s := rfl
@[simp] theorem exec_xorEbIb (e : Rm8) (imm : Byte) : exec (.xorEbIb e imm) s = execXorEbIb e imm s := rfl
@[simp] theorem exec_cmpEbIb (e : Rm8) (imm : Byte) : exec (.cmpEbIb e imm) s = execCmpEbIb e imm s := rfl
@[simp] theorem exec_addEvIw (e : Rm16) (imm : Word) : exec (.addEvIw e imm) s = execAddEvIw e imm s := rfl
@[simp] theorem exec_orEvIw (e : Rm16) (imm : Word) : exec (.orEvIw e imm) s = execOrEvIw e imm s := rfl
@[simp] theorem exec_adcEvIw (e : Rm16) (imm : Word) : exec (.adcEvIw e imm) s = execAdcEvIw e imm s := rfl
@[simp] theorem exec_sbbEvIw (e : Rm16) (imm : Word) : exec (.sbbEvIw e imm) s = execSbbEvIw e imm s := rfl
@[simp] theorem exec_andEvIw (e : Rm16) (imm : Word) : exec (.andEvIw e imm) s = execAndEvIw e imm s := rfl
@[simp] theorem exec_subEvIw (e : Rm16) (imm : Word) : exec (.subEvIw e imm) s = execSubEvIw e imm s := rfl
@[simp] theorem exec_xorEvIw (e : Rm16) (imm : Word) : exec (.xorEvIw e imm) s = execXorEvIw e imm s := rfl
@[simp] theorem exec_cmpEvIw (e : Rm16) (imm : Word) : exec (.cmpEvIw e imm) s = execCmpEvIw e imm s := rfl
@[simp] theorem exec_addEvSib (e : Rm16) (imm : Byte) : exec (.addEvSib e imm) s = execAddEvSib e imm s := rfl
@[simp] theorem exec_orEvSib (e : Rm16) (imm : Byte) : exec (.orEvSib e imm) s = execOrEvSib e imm s := rfl
@[simp] theorem exec_adcEvSib (e : Rm16) (imm : Byte) : exec (.adcEvSib e imm) s = execAdcEvSib e imm s := rfl
@[simp] theorem exec_sbbEvSib (e : Rm16) (imm : Byte) : exec (.sbbEvSib e imm) s = execSbbEvSib e imm s := rfl
@[simp] theorem exec_andEvSib (e : Rm16) (imm : Byte) : exec (.andEvSib e imm) s = execAndEvSib e imm s := rfl
@[simp] theorem exec_subEvSib (e : Rm16) (imm : Byte) : exec (.subEvSib e imm) s = execSubEvSib e imm s := rfl
@[simp] theorem exec_xorEvSib (e : Rm16) (imm : Byte) : exec (.xorEvSib e imm) s = execXorEvSib e imm s := rfl
@[simp] theorem exec_cmpEvSib (e : Rm16) (imm : Byte) : exec (.cmpEvSib e imm) s = execCmpEvSib e imm s := rfl
@[simp] theorem exec_testEbGb (e : Rm8) (g : Reg8) : exec (.testEbGb e g) s = execTestEbGb e g s := rfl
@[simp] theorem exec_testEvGv (e : Rm16) (g : Reg16) : exec (.testEvGv e g) s = execTestEvGv e g s := rfl
@[simp] theorem exec_xchgEbGb (e : Rm8) (g : Reg8) : exec (.xchgEbGb e g) s = execXchgEbGb e g s := rfl
@[simp] theorem exec_xchgEvGv (e : Rm16) (g : Reg16) : exec (.xchgEvGv e g) s = execXchgEvGv e g s := rfl
@[simp] theorem exec_movEbGb (e : Rm8) (g : Reg8) : exec (.movEbGb e g) s = execMovEbGb e g s := rfl
@[simp] theorem exec_movEvGv (e : Rm16) (g : Reg16) : exec (.movEvGv e g) s = execMovEvGv e g s := rfl
@[simp] theorem exec_movGbEb (g : Reg8) (e : Rm8) : exec (.movGbEb g e) s = execMovGbEb g e s := rfl
@[simp] theorem exec_movGvEv (g : Reg16) (e : Rm16) : exec (.movGvEv g e) s = execMovGvEv g e s := rfl
@[simp] theorem exec_movEwSw (e : Rm16) (sr : SReg) : exec (.movEwSw e sr) s = execMovEwSw e sr s := rfl
@[simp] theorem exec_inv8C (r : BitVec 2) (e : Rm16) : exec (.inv8C r e) s = execInv8C r e s := rfl
@[simp] theorem exec_leaGvM (g : Reg16) (m : MemOp) : exec (.leaGvM g m) s = execLeaGvM g m s := rfl
@[simp] theorem exec_inv8D (g : Reg16) (r : Reg16) : exec (.inv8D g r) s = execInv8D g r s := rfl
@[simp] theorem exec_movEsEw (e : Rm16) : exec (.movEsEw e) s = execMovEsEw e s := rfl
@[simp] theorem exec_movSsEw (e : Rm16) : exec (.movSsEw e) s = execMovSsEw e s := rfl
@[simp] theorem exec_movDsEw (e : Rm16) : exec (.movDsEw e) s = execMovDsEw e s := rfl
@[simp] theorem exec_inv8Ecs (e : Rm16) : exec (.inv8Ecs e) s = execInv8Ecs e s := rfl
@[simp] theorem exec_inv8E (r : BitVec 2) (e : Rm16) : exec (.inv8E r e) s = execInv8E r e s := rfl
@[simp] theorem exec_popEv (e : Rm16) : exec (.popEv e) s = execPopEv e s := rfl
@[simp] theorem exec_inv8F (r : BitVec 3) (e : Rm16) : exec (.inv8F r e) s = execInv8F r e s := rfl
@[simp] theorem exec_xchgAxR16 (r : Reg16) : exec (.xchgAxR16 r) s = execXchgAxR16 r s := rfl
@[simp] theorem exec_callAp (off : Word) (sg : Word) : exec (.callAp off sg) s = execCallAp off sg s := rfl
@[simp] theorem exec_movAlOb (off : Word) : exec (.movAlOb off) s = execMovAlOb off s := rfl
@[simp] theorem exec_movAxOv (off : Word) : exec (.movAxOv off) s = execMovAxOv off s := rfl
@[simp] theorem exec_movObAl (off : Word) : exec (.movObAl off) s = execMovObAl off s := rfl
@[simp] theorem exec_movOvAx (off : Word) : exec (.movOvAx off) s = execMovOvAx off s := rfl
@[simp] theorem exec_testAlIb (imm : Byte) : exec (.testAlIb imm) s = execTestAlIb imm s := rfl
@[simp] theorem exec_testAxIw (imm : Word) : exec (.testAxIw imm) s = execTestAxIw imm s := rfl
@[simp] theorem exec_movR8Ib (r : Reg8) (imm : Byte) : exec (.movR8Ib r imm) s = execMovR8Ib r imm s := rfl
@[simp] theorem exec_movR16Iw (r : Reg16) (imm : Word) : exec (.movR16Iw r imm) s = execMovR16Iw r imm s := rfl
@[simp] theorem exec_retIw (imm : Word) : exec (.retIw imm) s = execRetIw imm s := rfl
@[simp] theorem exec_lesGvMp (g : Reg16) (m : MemOp) : exec (.lesGvMp g m) s = execLesGvMp g m s := rfl
@[simp] theorem exec_invC4 (g : Reg16) (r : Reg16) : exec (.invC4 g r) s = execInvC4 g r s := rfl
@[simp] theorem exec_ldsGvMp (g : Reg16) (m : MemOp) : exec (.ldsGvMp g m) s = execLdsGvMp g m s := rfl
@[simp] theorem exec_invC5 (g : Reg16) (r : Reg16) : exec (.invC5 g r) s = execInvC5 g r s := rfl
@[simp] theorem exec_movEbIb (e : Rm8) (imm : Byte) : exec (.movEbIb e imm) s = execMovEbIb e imm s := rfl
@[simp] theorem exec_invC6 (r : BitVec 3) (e : Rm8) : exec (.invC6 r e) s = execInvC6 r e s := rfl
@[simp] theorem exec_movEvIw (e : Rm16) (imm : Word) : exec (.movEvIw e imm) s = execMovEvIw e imm s := rfl
@[simp] theorem exec_invC7 (r : BitVec 3) (e : Rm16) : exec (.invC7 r e) s = execInvC7 r e s := rfl
@[simp] theorem exec_retfIw (imm : Word) : exec (.retfIw imm) s = execRetfIw imm s := rfl
@[simp] theorem exec_intIb (n : Byte) : exec (.intIb n) s = execIntIb n s := rfl
@[simp] theorem exec_rolEb1 (e : Rm8) : exec (.rolEb1 e) s = execRolEb1 e s := rfl
@[simp] theorem exec_rorEb1 (e : Rm8) : exec (.rorEb1 e) s = execRorEb1 e s := rfl
@[simp] theorem exec_rclEb1 (e : Rm8) : exec (.rclEb1 e) s = execRclEb1 e s := rfl
@[simp] theorem exec_rcrEb1 (e : Rm8) : exec (.rcrEb1 e) s = execRcrEb1 e s := rfl
@[simp] theorem exec_shlEb1 (e : Rm8) : exec (.shlEb1 e) s = execShlEb1 e s := rfl
@[simp] theorem exec_shrEb1 (e : Rm8) : exec (.shrEb1 e) s = execShrEb1 e s := rfl
@[simp] theorem exec_invD0r6 (e : Rm8) : exec (.invD0r6 e) s = execInvD0r6 e s := rfl
@[simp] theorem exec_sarEb1 (e : Rm8) : exec (.sarEb1 e) s = execSarEb1 e s := rfl
@[simp] theorem exec_rolEv1 (e : Rm16) : exec (.rolEv1 e) s = execRolEv1 e s := rfl
@[simp] theorem exec_rorEv1 (e : Rm16) : exec (.rorEv1 e) s = execRorEv1 e s := rfl
@[simp] theorem exec_rclEv1 (e : Rm16) : exec (.rclEv1 e) s = execRclEv1 e s := rfl
@[simp] theorem exec_rcrEv1 (e : Rm16) : exec (.rcrEv1 e) s = execRcrEv1 e s := rfl
@[simp] theorem exec_shlEv1 (e : Rm16) : exec (.shlEv1 e) s = execShlEv1 e s := rfl
@[simp] theorem exec_shrEv1 (e : Rm16) : exec (.shrEv1 e) s = execShrEv1 e s := rfl
@[simp] theorem exec_invD1r6 (e : Rm16) : exec (.invD1r6 e) s = execInvD1r6 e s := rfl
@[simp] theorem exec_sarEv1 (e : Rm16) : exec (.sarEv1 e) s = execSarEv1 e s := rfl
@[simp] theorem exec_rolEbCl (e : Rm8) : exec (.rolEbCl e) s = execRolEbCl e s := rfl
@[simp] theorem exec_rorEbCl (e : Rm8) : exec (.rorEbCl e) s = execRorEbCl e s := rfl
@[simp] theorem exec_rclEbCl (e : Rm8) : exec (.rclEbCl e) s = execRclEbCl e s := rfl
@[simp] theorem exec_rcrEbCl (e : Rm8) : exec (.rcrEbCl e) s = execRcrEbCl e s := rfl
@[simp] theorem exec_shlEbCl (e : Rm8) : exec (.shlEbCl e) s = execShlEbCl e s := rfl
@[simp] theorem exec_shrEbCl (e : Rm8) : exec (.shrEbCl e) s = execShrEbCl e s := rfl
@[simp] theorem exec_invD2r6 (e : Rm8) : exec (.invD2r6 e) s = execInvD2r6 e s := rfl
@[simp] theorem exec_sarEbCl (e : Rm8) : exec (.sarEbCl e) s = execSarEbCl e s := rfl
@[simp] theorem exec_rolEvCl (e : Rm16) : exec (.rolEvCl e) s = execRolEvCl e s := rfl
@[simp] theorem exec_rorEvCl (e : Rm16) : exec (.rorEvCl e) s = execRorEvCl e s := rfl
@[simp] theorem exec_rclEvCl (e : Rm16) : exec (.rclEvCl e) s = execRclEvCl e s := rfl
@[simp] theorem exec_rcrEvCl (e : Rm16) : exec (.rcrEvCl e) s = execRcrEvCl e s := rfl
@[simp] theorem exec_shlEvCl (e : Rm16) : exec (.shlEvCl e) s = execShlEvCl e s := rfl
@[simp] theorem exec_shrEvCl (e : Rm16) : exec (.shrEvCl e) s = execShrEvCl e s := rfl
@[simp] theorem exec_invD3r6 (e : Rm16) : exec (.invD3r6 e) s = execInvD3r6 e s := rfl
@[simp] theorem exec_sarEvCl (e : Rm16) : exec (.sarEvCl e) s = execSarEvCl e s := rfl
@[simp] theorem exec_aam (base : Byte) : exec (.aam base) s = execAam base s := rfl
@[simp] theorem exec_aad (base : Byte) : exec (.aad base) s = execAad base s := rfl
@[simp] theorem exec_esc (n : BitVec 3) (r : BitVec 3) (e : Rm16) : exec (.esc n r e) s = execEsc n r e s := rfl
@[simp] theorem exec_loopne (rel : Byte) : exec (.loopne rel) s = execLoopne rel s := rfl
@[simp] theorem exec_loope (rel : Byte) : exec (.loope rel) s = execLoope rel s := rfl
@[simp] theorem exec_loop (rel : Byte) : exec (.loop rel) s = execLoop rel s := rfl
@[simp] theorem exec_jcxz (rel : Byte) : exec (.jcxz rel) s = execJcxz rel s := rfl
@[simp] theorem exec_inAlIb (port : Byte) : exec (.inAlIb port) s = execInAlIb port s := rfl
@[simp] theorem exec_inAxIb (port : Byte) : exec (.inAxIb port) s = execInAxIb port s := rfl
@[simp] theorem exec_outIbAl (port : Byte) : exec (.outIbAl port) s = execOutIbAl port s := rfl
@[simp] theorem exec_outIbAx (port : Byte) : exec (.outIbAx port) s = execOutIbAx port s := rfl
@[simp] theorem exec_callRel16 (rel : Word) : exec (.callRel16 rel) s = execCallRel16 rel s := rfl
@[simp] theorem exec_jmpRel16 (rel : Word) : exec (.jmpRel16 rel) s = execJmpRel16 rel s := rfl
@[simp] theorem exec_jmpAp (off : Word) (sg : Word) : exec (.jmpAp off sg) s = execJmpAp off sg s := rfl
@[simp] theorem exec_jmpRel8 (rel : Byte) : exec (.jmpRel8 rel) s = execJmpRel8 rel s := rfl
@[simp] theorem exec_testEbIb (e : Rm8) (imm : Byte) : exec (.testEbIb e imm) s = execTestEbIb e imm s := rfl
@[simp] theorem exec_invF6r1 (e : Rm8) : exec (.invF6r1 e) s = execInvF6r1 e s := rfl
@[simp] theorem exec_notEb (e : Rm8) : exec (.notEb e) s = execNotEb e s := rfl
@[simp] theorem exec_negEb (e : Rm8) : exec (.negEb e) s = execNegEb e s := rfl
@[simp] theorem exec_mulEb (e : Rm8) : exec (.mulEb e) s = execMulEb e s := rfl
@[simp] theorem exec_imulEb (e : Rm8) : exec (.imulEb e) s = execImulEb e s := rfl
@[simp] theorem exec_divEb (e : Rm8) : exec (.divEb e) s = execDivEb e s := rfl
@[simp] theorem exec_idivEb (e : Rm8) : exec (.idivEb e) s = execIdivEb e s := rfl
@[simp] theorem exec_testEvIw (e : Rm16) (imm : Word) : exec (.testEvIw e imm) s = execTestEvIw e imm s := rfl
@[simp] theorem exec_invF7r1 (e : Rm16) : exec (.invF7r1 e) s = execInvF7r1 e s := rfl
@[simp] theorem exec_notEv (e : Rm16) : exec (.notEv e) s = execNotEv e s := rfl
@[simp] theorem exec_negEv (e : Rm16) : exec (.negEv e) s = execNegEv e s := rfl
@[simp] theorem exec_mulEv (e : Rm16) : exec (.mulEv e) s = execMulEv e s := rfl
@[simp] theorem exec_imulEv (e : Rm16) : exec (.imulEv e) s = execImulEv e s := rfl
@[simp] theorem exec_divEv (e : Rm16) : exec (.divEv e) s = execDivEv e s := rfl
@[simp] theorem exec_idivEv (e : Rm16) : exec (.idivEv e) s = execIdivEv e s := rfl
@[simp] theorem exec_incEb (e : Rm8) : exec (.incEb e) s = execIncEb e s := rfl
@[simp] theorem exec_decEb (e : Rm8) : exec (.decEb e) s = execDecEb e s := rfl
@[simp] theorem exec_invFE (r : BitVec 3) (e : Rm8) : exec (.invFE r e) s = execInvFE r e s := rfl
@[simp] theorem exec_incEv (e : Rm16) : exec (.incEv e) s = execIncEv e s := rfl
@[simp] theorem exec_decEv (e : Rm16) : exec (.decEv e) s = execDecEv e s := rfl
@[simp] theorem exec_callEv (e : Rm16) : exec (.callEv e) s = execCallEv e s := rfl
@[simp] theorem exec_callMp (m : MemOp) : exec (.callMp m) s = execCallMp m s := rfl
@[simp] theorem exec_jmpEv (e : Rm16) : exec (.jmpEv e) s = execJmpEv e s := rfl
@[simp] theorem exec_jmpMp (m : MemOp) : exec (.jmpMp m) s = execJmpMp m s := rfl
@[simp] theorem exec_pushEv (e : Rm16) : exec (.pushEv e) s = execPushEv e s := rfl
@[simp] theorem exec_invFFr3 (r : Reg16) : exec (.invFFr3 r) s = execInvFFr3 r s := rfl
@[simp] theorem exec_invFFr5 (r : Reg16) : exec (.invFFr5 r) s = execInvFFr5 r s := rfl
@[simp] theorem exec_invFFr7 (e : Rm16) : exec (.invFFr7 e) s = execInvFFr7 e s := rfl
@[simp] theorem exec_pushEs : exec .pushEs s = execPushEs s := rfl
@[simp] theorem exec_popEs : exec .popEs s = execPopEs s := rfl
@[simp] theorem exec_pushCs : exec .pushCs s = execPushCs s := rfl
@[simp] theorem exec_pushSs : exec .pushSs s = execPushSs s := rfl
@[simp] theorem exec_popSs : exec .popSs s = execPopSs s := rfl
@[simp] theorem exec_pushDs : exec .pushDs s = execPushDs s := rfl
@[simp] theorem exec_popDs : exec .popDs s = execPopDs s := rfl
@[simp] theorem exec_inv0F : exec .inv0F s = execInv0F s := rfl
@[simp] theorem exec_segEs : exec .segEs s = execSegEs s := rfl
@[simp] theorem exec_segCs : exec .segCs s = execSegCs s := rfl
@[simp] theorem exec_segSs : exec .segSs s = execSegSs s := rfl
@[simp] theorem exec_segDs : exec .segDs s = execSegDs s := rfl
@[simp] theorem exec_daa : exec .daa s = execDaa s := rfl
@[simp] theorem exec_das : exec .das s = execDas s := rfl
@[simp] theorem exec_aaa : exec .aaa s = execAaa s := rfl
@[simp] theorem exec_aas : exec .aas s = execAas s := rfl
@[simp] theorem exec_inv82 : exec .inv82 s = execInv82 s := rfl
@[simp] theorem exec_nop : exec .nop s = execNop s := rfl
@[simp] theorem exec_cbw : exec .cbw s = execCbw s := rfl
@[simp] theorem exec_cwd : exec .cwd s = execCwd s := rfl
@[simp] theorem exec_wait : exec .wait s = execWait s := rfl
@[simp] theorem exec_pushf : exec .pushf s = execPushf s := rfl
@[simp] theorem exec_popf : exec .popf s = execPopf s := rfl
@[simp] theorem exec_sahf : exec .sahf s = execSahf s := rfl
@[simp] theorem exec_lahf : exec .lahf s = execLahf s := rfl
@[simp] theorem exec_movsb : exec .movsb s = execMovsb s := rfl
@[simp] theorem exec_movsw : exec .movsw s = execMovsw s := rfl
@[simp] theorem exec_cmpsb : exec .cmpsb s = execCmpsb s := rfl
@[simp] theorem exec_cmpsw : exec .cmpsw s = execCmpsw s := rfl
@[simp] theorem exec_stosb : exec .stosb s = execStosb s := rfl
@[simp] theorem exec_stosw : exec .stosw s = execStosw s := rfl
@[simp] theorem exec_lodsb : exec .lodsb s = execLodsb s := rfl
@[simp] theorem exec_lodsw : exec .lodsw s = execLodsw s := rfl
@[simp] theorem exec_scasb : exec .scasb s = execScasb s := rfl
@[simp] theorem exec_scasw : exec .scasw s = execScasw s := rfl
@[simp] theorem exec_invC0 : exec .invC0 s = execInvC0 s := rfl
@[simp] theorem exec_invC1 : exec .invC1 s = execInvC1 s := rfl
@[simp] theorem exec_invC8 : exec .invC8 s = execInvC8 s := rfl
@[simp] theorem exec_invC9 : exec .invC9 s = execInvC9 s := rfl
@[simp] theorem exec_invD6 : exec .invD6 s = execInvD6 s := rfl
@[simp] theorem exec_invF1 : exec .invF1 s = execInvF1 s := rfl
@[simp] theorem exec_ret : exec .ret s = execRet s := rfl
@[simp] theorem exec_retf : exec .retf s = execRetf s := rfl
@[simp] theorem exec_int3 : exec .int3 s = execInt3 s := rfl
@[simp] theorem exec_into : exec .into s = execInto s := rfl
@[simp] theorem exec_iret : exec .iret s = execIret s := rfl
@[simp] theorem exec_xlat : exec .xlat s = execXlat s := rfl
@[simp] theorem exec_inAlDx : exec .inAlDx s = execInAlDx s := rfl
@[simp] theorem exec_inAxDx : exec .inAxDx s = execInAxDx s := rfl
@[simp] theorem exec_outDxAl : exec .outDxAl s = execOutDxAl s := rfl
@[simp] theorem exec_outDxAx : exec .outDxAx s = execOutDxAx s := rfl
@[simp] theorem exec_lock : exec .lock s = execLock s := rfl
@[simp] theorem exec_repne : exec .repne s = execRepne s := rfl
@[simp] theorem exec_rep : exec .rep s = execRep s := rfl
@[simp] theorem exec_hlt : exec .hlt s = execHlt s := rfl
@[simp] theorem exec_cmc : exec .cmc s = execCmc s := rfl
@[simp] theorem exec_clc : exec .clc s = execClc s := rfl
@[simp] theorem exec_stc : exec .stc s = execStc s := rfl
@[simp] theorem exec_cli : exec .cli s = execCli s := rfl
@[simp] theorem exec_sti : exec .sti s = execSti s := rfl
@[simp] theorem exec_cld : exec .cld s = execCld s := rfl
@[simp] theorem exec_std : exec .std s = execStd s := rfl

end Sys2Proof.Machine
end

