-- ==== Sys2Proof/Machine/Run.lean ====
section
/-! DEFINITION. The entry points `execute(n)` and `execute()`, the parameter MAX_STEPS, and the end of a run (40_pipeline.md R230, R231;
00_scope.md R10). -/

namespace Sys2Proof.Machine

/-- `execute(maxSteps)`: runs until halted or the step budget is spent (40_pipeline.md R230, R231). A step that stops, stops the run. -/
def execute : Nat → State → Out
  | 0, s => .next s
  | n + 1, s => if s.runState = .halted then .next s else thenDo (step s) fun s => execute n s

/-- The final state of a run, where it has ended: the state after the last step, or, where the host ended the run, the state at that call
(40_pipeline.md R231). The other faults are no end of a run: `endlessPrefixes` is a step that goes on for ever, and the rest are stops of
the model's own in runs that R231 does not have. -/
def finalState : Out → Option State
  | .next s => some s
  | .fault (.hostStopped _ s) => some s
  | .fault .halted | .fault (.notIdle _) | .fault .endlessPrefixes | .fault .repeatBound | .refused _ => none

/-- The run is over whatever budget is left: Halted, or ended by the host at a call (40_pipeline.md R231 (a), (c)). -/
def runOver : Out → Bool
  | .next s => s.runState == .halted
  | .fault (.hostStopped _ _) => true
  | .fault .halted | .fault (.notIdle _) | .fault .endlessPrefixes | .fault .repeatBound | .refused _ => false

/-- The run has more to do: a next step, or a step without end, a code segment of prefix bytes (40_pipeline.md R205; log entry 9). -/
def runGoesOn : Out → Bool
  | .next s => s.runState != .halted
  | .fault .endlessPrefixes => true
  | .fault (.hostStopped _ _) | .fault .halted | .fault (.notIdle _) | .fault .repeatBound | .refused _ => false

/-- A run from `s` with the step budget MAX_STEPS ends with `o`: `execute(n)` once n steps are done, or before that Halted or where the host
ends it; with no budget, `execute()`, only Halted or where the host ends it, however many steps that takes (40_pipeline.md R230, R231;
00_scope.md R10; log entry 30). -/
def executeEnds (maxSteps : Option Nat) (s : State) (o : Out) : Prop :=
  match maxSteps with
  | some n => execute n s = o ∧ (finalState o).isSome = true
  | none => ∃ n, execute n s = o ∧ runOver o = true

/-- A run that does not end: `execute()` that always has more to do, or, with a budget or without, a step that goes on for ever. There is no
timeout and no preemption (40_pipeline.md R230, R231). -/
def executeForever (maxSteps : Option Nat) (s : State) : Prop :=
  match maxSteps with
  | some n => execute n s = .fault .endlessPrefixes
  | none => ∀ n, runGoesOn (execute n s) = true

end Sys2Proof.Machine
end

