-- ==== Sys2Proof/Laws/Run.lean ====
section
/-! SUPPORT. A run ends in one way or not at all, with a budget or without (40_pipeline.md R230, R231). -/

namespace Sys2Proof.Machine

theorem execute_halted {s : State} (h : s.runState = .halted) (n : Nat) : execute n s = .next s := by
  cases n with
  | zero => rfl
  | succ n => simp [execute, h]

/-- A larger budget goes on from where the smaller one is spent. -/
theorem execute_add (n k : Nat) (s : State) : execute (n + k) s = thenDo (execute n s) (execute k) := by
  induction n generalizing s with
  | zero => rw [Nat.zero_add]; rfl
  | succ n ih =>
    rw [Nat.succ_add]
    unfold execute
    split
    · rename_i h
      exact (execute_halted h k).symm
    · cases step s with
      | next t => exact ih t
      | fault f => rfl
      | refused r => rfl

/-- A run that is over stays as it is, whatever budget is left. -/
theorem execute_of_runOver {n : Nat} {s : State} (h : runOver (execute n s) = true) (k : Nat) : execute (n + k) s = execute n s := by
  rw [execute_add]
  cases ho : execute n s with
  | next t => exact execute_halted (by simpa [ho, runOver] using h) k
  | fault f => rfl
  | refused r => rfl

/-- What ends a run with no budget has a final state. -/
theorem finalState_of_runOver {o : Out} (h : runOver o = true) : (finalState o).isSome = true := by
  rcases o with s | f | r
  · rfl
  · cases f <;> first | rfl | cases h
  · cases h

/-- A run ends in one way only, with a budget or without. -/
theorem executeEnds_unique {m : Option Nat} {s : State} {o p : Out} (h : executeEnds m s o) (k : executeEnds m s p) : o = p := by
  cases m with
  | some n => exact h.1.symm.trans k.1
  | none =>
    obtain ⟨a, rfl, ha⟩ := h
    obtain ⟨b, rfl, hb⟩ := k
    rw [← execute_of_runOver ha b, ← execute_of_runOver hb a, Nat.add_comm]

/-- What has more to do is not over. -/
theorem runOver_of_goesOn {o : Out} (h : runGoesOn o = true) : runOver o = false := by
  rcases o with s | f | r
  · simpa [runGoesOn, runOver, bne] using h
  · cases f <;> first | rfl | cases h
  · rfl

/-- A run that goes on for ever has no end. -/
theorem not_ends_of_forever {m : Option Nat} {s : State} (h : executeForever m s) (o : Out) : ¬ executeEnds m s o := by
  cases m with
  | some n =>
    rintro ⟨rfl, ho⟩
    rw [show execute n s = .fault .endlessPrefixes from h] at ho
    cases ho
  | none =>
    rintro ⟨n, rfl, hn⟩
    rw [runOver_of_goesOn (h n)] at hn
    cases hn

/-- A run that comes to a step without end goes on for ever: with no budget, and with any that lets it come there. -/
theorem forever_of_endlessPrefixes {n : Nat} {s : State} (h : execute n s = .fault .endlessPrefixes) :
    executeForever none s ∧ ∀ k, executeForever (some (n + k)) s := by
  have later (k : Nat) : execute (n + k) s = .fault .endlessPrefixes := by rw [execute_add, h]; rfl
  refine ⟨fun m => ?_, later⟩
  rcases Nat.le_total n m with hm | hm
  · obtain ⟨k, rfl⟩ := Nat.exists_eq_add_of_le hm
    rw [later k]; rfl
  · obtain ⟨k, rfl⟩ := Nat.exists_eq_add_of_le hm
    rw [execute_add] at h
    cases ho : execute m s with
    | next t =>
      rw [ho] at h
      have ht : t.runState ≠ .halted := fun hh => by
        rw [show thenDo (.next t) (execute k) = execute k t from rfl, execute_halted hh] at h
        cases h
      simpa [runGoesOn] using ht
    | fault f => rw [ho] at h; cases h; rfl
    | refused r => rw [ho] at h; cases h

/-- A code segment of nothing but prefix bytes, past the host's script: its step goes on for ever, and so does the run (40_pipeline.md R205,
R231). -/
theorem forever_of_prefixes {s : State} (hr : s.runState = .idle) (hs : s.host = []) (hp : ∀ off, (beginStep s).prefixAt off = true) :
    executeForever none s ∧ ∀ k, executeForever (some (1 + k)) s := by
  refine forever_of_endlessPrefixes (n := 1) ?_
  simp [execute, hr, step, runChain_endless (s := beginStep s) hs hp, thenWith]

/-- With no budget a run ends, or goes on for ever, or the model stops it with a fault of its own. -/
theorem ends_or_forever (s : State) :
    (∃ o, executeEnds none s o) ∨ executeForever none s ∨ ∃ n, runOver (execute n s) = false ∧ runGoesOn (execute n s) = false := by
  by_cases h : ∃ n, runOver (execute n s) = true
  · obtain ⟨n, hn⟩ := h
    exact .inl ⟨_, n, rfl, hn⟩
  · by_cases k : executeForever none s
    · exact .inr (.inl k)
    · obtain ⟨n, hn⟩ := not_forall.1 k
      exact .inr (.inr ⟨n, by simpa using not_exists.1 h n, by simpa using hn⟩)

end Sys2Proof.Machine
end

