-- ==== Sys2Proof/Laws/Strings.lean ====
section
/-! SUPPORT. The bodies of the string instructions under the quiet host, one equation each, and the repeat loop over a body that leaves CX
alone. -/

namespace Sys2Proof.Machine

theorem movsBody8_quiet {s : State} (h : Quiet s) : movsBody8 s = .next (moved8 s) := by
  simp [movsBody8, readSrc8, writeDst8, memRead8_quiet _ _ h, memWrite8_quiet _ _ _ (quiet_checked _ _ h), moved8, advance, stepIndex,
    State.flag]
  rfl

theorem movsBody16_quiet {s : State} (h : Quiet s) : movsBody16 s = .next (moved16 s) := by
  simp [movsBody16, readSrc16, writeDst16, memRead16_quiet _ _ h, memWrite16_quiet _ _ _ (quiet_checkedWord _ _ _ h), moved16, advance,
    stepIndex, State.flag]
  rfl

theorem lodsBody8_quiet {s : State} (h : Quiet s) : lodsBody8 s = .next (loaded8 s) := by
  simp [lodsBody8, readSrc8, memRead8_quiet _ _ h, loaded8, advance, stepIndex,
    State.reg_setReg8_ne _ _ (show Reg16.si ≠ wideReg .al by decide), State.flag]
  rfl

theorem lodsBody16_quiet {s : State} (h : Quiet s) : lodsBody16 s = .next (loaded16 s) := by
  simp [lodsBody16, readSrc16, memRead16_quiet _ _ h, loaded16, advance, stepIndex, State.flag]
  rfl

theorem stosBody8_quiet {s : State} (h : Quiet s) : stosBody8 s = .next (filled8 s) := by
  simp [stosBody8, writeDst8, memWrite8_quiet _ _ _ h, filled8, advance, stepIndex, State.flag]
  rfl

theorem stosBody16_quiet {s : State} (h : Quiet s) : stosBody16 s = .next (filled16 s) := by
  simp [stosBody16, writeDst16, memWrite16_quiet _ _ _ h, filled16, advance, stepIndex, State.flag]
  rfl

theorem getFlag_DF_subFlags {w : Nat} (a b : BitVec w) (c : Bool) (v : Word) : getFlag .DF (subFlags a b c v) = getFlag .DF v :=
  getFlag_subFlags a b c v .DF

theorem cmpsBody8_quiet {s : State} (h : Quiet s) : cmpsBody8 s = .next (compared8 s) := by
  simp [cmpsBody8, readSrc8, readDst8, memRead8_quiet _ _ h, memRead8_quiet _ _ (quiet_checked _ _ h), compared8, advance,
    getFlag_DF_subFlags, stepIndex, State.flag]
  rfl

theorem cmpsBody16_quiet {s : State} (h : Quiet s) : cmpsBody16 s = .next (compared16 s) := by
  simp [cmpsBody16, readSrc16, readDst16, memRead16_quiet _ _ h, memRead16_quiet _ _ (quiet_checkedWord _ _ _ h), compared16, advance,
    getFlag_DF_subFlags, stepIndex, State.flag]
  rfl

theorem scasBody8_quiet {s : State} (h : Quiet s) : scasBody8 s = .next (scanned8 s) := by
  simp [scasBody8, readDst8, memRead8_quiet _ _ h, scanned8, advance,
    getFlag_DF_subFlags, stepIndex, State.flag]
  rfl

theorem scasBody16_quiet {s : State} (h : Quiet s) : scasBody16 s = .next (scanned16 s) := by
  simp [scasBody16, readDst16, memRead16_quiet _ _ h, scanned16, advance,
    getFlag_DF_subFlags, stepIndex, State.flag]
  rfl

/-! ### The repeat loop -/

theorem quiet_moved8 {s : State} (h : Quiet s) : Quiet (moved8 s) :=
  quiet_storeByte (s.sreg .es) (s.reg .di) (s.byteAt (segOr .ds s) (s.reg .si)) (quiet_checked _ _ h)
theorem quiet_moved16 {s : State} (h : Quiet s) : Quiet (moved16 s) :=
  quiet_storeWord (s.sreg .es) (s.reg .di) (s.wordAt (segOr .ds s) (s.reg .si)) (quiet_checkedWord _ _ _ h)
theorem quiet_loaded8 {s : State} (h : Quiet s) : Quiet (loaded8 s) := quiet_checked _ _ h
theorem quiet_loaded16 {s : State} (h : Quiet s) : Quiet (loaded16 s) := quiet_checkedWord _ _ _ h
theorem quiet_filled8 {s : State} (h : Quiet s) : Quiet (filled8 s) := quiet_storeByte _ _ (s.reg8 .al) h
theorem quiet_filled16 {s : State} (h : Quiet s) : Quiet (filled16 s) := quiet_storeWord _ _ (s.reg .ax) h
theorem quiet_compared8 {s : State} (h : Quiet s) : Quiet (compared8 s) := quiet_checked _ _ (quiet_checked _ _ h)
theorem quiet_compared16 {s : State} (h : Quiet s) : Quiet (compared16 s) := quiet_checkedWord _ _ _ (quiet_checkedWord _ _ _ h)
theorem quiet_scanned8 {s : State} (h : Quiet s) : Quiet (scanned8 s) := quiet_checked _ _ h
theorem quiet_scanned16 {s : State} (h : Quiet s) : Quiet (scanned16 s) := quiet_checkedWord _ _ _ h

theorem reg_countDown_cx (s : State) : (countDown s).reg .cx = s.reg .cx - 1 := by simp [countDown]

/-- CX after a round that started with CX above 0. -/
theorem toNat_sub_one {v : Word} {n : Nat} (h : v.toNat = n + 1) : (v - 1).toNat = n := by
  have := v.isLt
  bv_omega

/-- A loop that does not test ZF runs CX rounds (45_string.md R432, R433). -/
theorem repeatLoop_transfer {body : State → Out} {f : State → State} (hb : ∀ t, Quiet t → body t = .next (f t))
    (hq : ∀ t, Quiet t → Quiet (f t)) (hc : ∀ t, (f t).reg .cx = t.reg .cx) (n : Nat) :
    ∀ (bound : Nat) (s : State), Quiet s → (s.reg .cx).toNat = n → n ≤ bound →
      repeatLoop body false bound s = .next (rounds f n s) := by
  induction n with
  | zero =>
    intro bound s _ hn _
    have h0 : s.reg .cx = 0 := BitVec.eq_of_toNat_eq hn
    unfold repeatLoop
    simp [h0, rounds]
  | succ n ih =>
    intro bound s h hn hle
    have h0 : s.reg .cx ≠ 0 := by
      intro e
      simp [e] at hn
    obtain ⟨bound, rfl⟩ : ∃ b, bound = b + 1 := ⟨bound - 1, by omega⟩
    unfold repeatLoop
    rw [if_neg h0, hb s h]
    exact ih bound (countDown (f s)) (hq s h) (by rw [reg_countDown_cx, hc]; exact toNat_sub_one hn) (by omega)

end Sys2Proof.Machine
end

