-- ==== Sys2Proof/Tests/Slice0.lean ====
section
/-! SUPPORT. The model's own tests: the well-formedness smoke test; every constructor's decoding, each from a word written out from the
encoding the spec gives it (30_encoding.md R130-R165 and the family's rule); single steps whose expected values are the spec's
own vectors or worked by hand from the rule named; and, for every statement with hypotheses, a state that meets them. -/

namespace Sys2Proof.Tests

open Machine

/-! ### A small machine: CS = DS = ES = SS = 0, the bytes given at CS:IP (95_test_vectors.md, conventions), a passive host -/

def machine (ip : Word) (bytes : List Byte) : State :=
  ({ State.reset with sregs := { es := 0, cs := 0, ss := 0, ds := 0 }, ip := ip, atInterrupt := some .passive }).placeCode ip bytes

end Sys2Proof.Tests

namespace Sys2Proof.Machine.State

/-- Bytes in memory from an address on. -/
def holding (s : State) (a : Addr) : List Byte → State
  | [] => s
  | b :: bytes => (s.poke a b).holding (a + 1) bytes

/-- SINGLE_STEP is true. -/
def stepping (s : State) : State := { s with singleStep := true }

/-- The host answers call number `n`, counted from 0, with `v`. -/
def answering (s : State) (n : Nat) (v : Word) : State :=
  { s with host := List.replicate n { returns := true, acts := [], answer := none } ++ [{ returns := true, acts := [], answer := some v }] }

/-- The host acts in call number `n`. -/
def serving (s : State) (n : Nat) (acts : List HostAct) : State :=
  { s with host := List.replicate n { returns := true, acts := [], answer := none } ++ [{ returns := true, acts, answer := none }] }

/-- The host does not return from call number `n`. -/
def leaving (s : State) (n : Nat) : State :=
  { s with host := List.replicate n { returns := true, acts := [], answer := none } ++ [{ returns := false, acts := [], answer := none }] }

/-- The host acts in the call after those of its script. -/
def thenServing (s : State) (acts : List HostAct) : State :=
  { s with host := s.host ++ [{ returns := true, acts, answer := none }] }

/-- The host does not return from the call after those of its script. -/
def thenLeaving (s : State) : State := { s with host := s.host ++ [{ returns := false, acts := [], answer := none }] }

end Sys2Proof.Machine.State

namespace Sys2Proof.Tests

open Machine

-- one test at a time: each waits for the kernel, and side by side they need one thread each
set_option Elab.async false

/-- One step answers next, in a state with the property. -/
def ends (s : State) (p : State → Bool) : Bool :=
  match step s with
  | .next t => p t
  | _ => false

/-- The host does not return from this call in one step, and the state at that point has the property. -/
def stops (s : State) (c : HostCall) (p : State → Bool) : Bool :=
  match step s with
  | .fault (.hostStopped d t) => d == c && p t
  | _ => false

/-- The result, CF and OF of a shift by `n`. -/
def outcome (op : ShiftOp) (n : Nat) (v : Byte) : Byte × Bool × Bool :=
  let r := shiftSteps op n (v, 0xF002)
  (r.1, getFlag .CF r.2, getFlag .OF r.2)

/-- Whether the conditional jump with this opcode is taken when just these flags are set. -/
def jumped (op : Byte) (fs : List Flag) : Bool :=
  ends (fs.foldl (fun s f => s.setFlag f true) (machine 0x0100 [op, 0x10])) fun t => t.ip == 0x0112

/-! ### Well-formedness -/

-- 30_encoding.md R142: mod 0, rm 6 is the displacement-only form, so [BP] alone has no encoding
theorem test_wf_refuses_bp_alone :
    (Instr.addEbGb (.mem (.base .bp)) .al).wf = false ∧ (Instr.movEwSw (.mem (.base .bp)) .ds).wf = false ∧
    (Instr.leaGvM .ax (.base .bp)).wf = false ∧ (Instr.callMp (.base .bp)).wf = false ∧
    (Instr.addEbGb (.mem (.disp8 .bp 0)) .al).wf = true := ⟨rfl, rfl, rfl, rfl, rfl⟩

-- 30_encoding.md R134: 0x90 is NOP
theorem test_wf_refuses_xchg_ax_ax : (Instr.xchgAxR16 .ax).wf = false ∧ (Instr.xchgAxR16 .cx).wf = true := ⟨rfl, rfl⟩

-- 30_encoding.md R165, R170: the reg codes that have a row of their own
theorem test_wf_refuses_mapped_reg_codes :
    (Instr.inv8F 0 (.reg .ax)).wf = false ∧ (Instr.invC6 0 (.reg .al)).wf = false ∧ (Instr.invC7 0 (.reg .ax)).wf = false ∧
    (Instr.invFE 0 (.reg .al)).wf = false ∧ (Instr.invFE 1 (.reg .al)).wf = false ∧ (Instr.invFE 2 (.reg .al)).wf = true :=
  ⟨rfl, rfl, rfl, rfl, rfl, rfl⟩

/-! ### Decoding: every constructor -/

theorem test_decode_add :
    decode [0x00, 0x56, 0xFE] = .ok (.addEbGb (.mem (.disp8 .bp 0xFE)) .dl, []) ∧
    decode [0x01, 0xEB] = .ok (.addEvGv (.reg .bx) .bp, []) ∧
    decode [0x02, 0xDE] = .ok (.addGbEb .bl (.reg .dh), []) ∧
    decode [0x03, 0x31] = .ok (.addGvEv .si (.mem (.base .bxDi)), []) ∧
    decode [0x04, 0x8E] = .ok (.addAlIb 0x8E, []) ∧
    decode [0x05, 0x67, 0xC8] = .ok (.addAxIw 0xC867, []) ∧
    decode [0x10, 0xD5] = .ok (.adcEbGb (.reg .ch) .dl, []) ∧
    decode [0x11, 0xAD, 0x00, 0x01] = .ok (.adcEvGv (.mem (.disp16 .di 0x0100)) .bp, []) ∧
    decode [0x12, 0x9E, 0x00, 0x80] = .ok (.adcGbEb .bl (.mem (.disp16 .bp 0x8000)), []) ∧
    decode [0x13, 0x31] = .ok (.adcGvEv .si (.mem (.base .bxDi)), []) ∧
    decode [0x14, 0xA2] = .ok (.adcAlIb 0xA2, []) ∧
    decode [0x15, 0xF3, 0xDC] = .ok (.adcAxIw 0xDCF3, []) ∧
    decode [0x80, 0xC6, 0xEC] = .ok (.addEbIb (.reg .dh) 0xEC, []) ∧
    decode [0x80, 0x96, 0x00, 0x80, 0xF0] = .ok (.adcEbIb (.mem (.disp16 .bp 0x8000)) 0xF0, []) ∧
    decode [0x81, 0x01, 0x62, 0x38] = .ok (.addEvIw (.mem (.base .bxDi)) 0x3862, []) ∧
    decode [0x81, 0x10, 0x7E, 0x3C] = .ok (.adcEvIw (.mem (.base .bxSi)) 0x3C7E, []) ∧
    decode [0x83, 0x43, 0x10, 0x0C] = .ok (.addEvSib (.mem (.disp8 .bpDi 0x10)) 0x0C, []) ∧
    decode [0x83, 0xD2, 0x10] = .ok (.adcEvSib (.reg .dx) 0x10, []) := by
  refine ⟨rfl, rfl, rfl, rfl, rfl, rfl, rfl, rfl, rfl, rfl, rfl, rfl, rfl, rfl, rfl, rfl, rfl, rfl⟩

theorem test_decode_logic_1 :
    decode [0x08, 0x56, 0xFE] = .ok (.orEbGb (.mem (.disp8 .bp 0xFE)) .dl, []) ∧
    decode [0x09, 0xAD, 0x00, 0x01] = .ok (.orEvGv (.mem (.disp16 .di 0x0100)) .bp, []) ∧
    decode [0x0A, 0x9E, 0x00, 0x80] = .ok (.orGbEb .bl (.mem (.disp16 .bp 0x8000)), []) ∧
    decode [0x0B, 0xF2] = .ok (.orGvEv .si (.reg .dx), []) ∧
    decode [0x0C, 0x98] = .ok (.orAlIb 0x98, []) ∧
    decode [0x0D, 0xAD, 0xD2] = .ok (.orAxIw 0xD2AD, []) ∧
    decode [0x20, 0x56, 0xFE] = .ok (.andEbGb (.mem (.disp8 .bp 0xFE)) .dl, []) ∧
    decode [0x21, 0xAD, 0x00, 0x01] = .ok (.andEvGv (.mem (.disp16 .di 0x0100)) .bp, []) ∧
    decode [0x22, 0x9E, 0x00, 0x80] = .ok (.andGbEb .bl (.mem (.disp16 .bp 0x8000)), []) ∧
    decode [0x23, 0xF0] = .ok (.andGvEv .si (.reg .ax), []) ∧
    decode [0x24, 0xB6] = .ok (.andAlIb 0xB6, []) ∧
    decode [0x25, 0x7F, 0xF1] = .ok (.andAxIw 0xF17F, []) ∧
    decode [0x30, 0x56, 0xFE] = .ok (.xorEbGb (.mem (.disp8 .bp 0xFE)) .dl, []) ∧
    decode [0x31, 0xEF] = .ok (.xorEvGv (.reg .di) .bp, []) ∧
    decode [0x32, 0xDA] = .ok (.xorGbEb .bl (.reg .dl), []) ∧
    decode [0x33, 0x31] = .ok (.xorGvEv .si (.mem (.base .bxDi)), []) ∧
    decode [0x34, 0xCA] = .ok (.xorAlIb 0xCA, []) ∧
    decode [0x35, 0x0B, 0x06] = .ok (.xorAxIw 0x060B, []) ∧
    decode [0x80, 0x4B, 0x10, 0xEE] = .ok (.orEbIb (.mem (.disp8 .bpDi 0x10)) 0xEE, []) ∧
    decode [0x80, 0x26, 0x34, 0x12, 0xF4] = .ok (.andEbIb (.mem (.direct 0x1234)) 0xF4, []) ∧
    decode [0x80, 0xF2, 0xF8] = .ok (.xorEbIb (.reg .dl) 0xF8, []) ∧
    decode [0x81, 0xC8, 0x70, 0x3A] = .ok (.orEvIw (.reg .ax) 0x3A70, []) ∧
    decode [0x81, 0xE6, 0x9A, 0x40] = .ok (.andEvIw (.reg .si) 0x409A, []) ∧
    decode [0x81, 0x36, 0x34, 0x12, 0xB6, 0x44] = .ok (.xorEvIw (.mem (.direct 0x1234)) 0x44B6, []) := by
  refine ⟨rfl, rfl, rfl, rfl, rfl, rfl, rfl, rfl, rfl, rfl, rfl, rfl, rfl, rfl, rfl, rfl, rfl, rfl, rfl, rfl, rfl, rfl, rfl, rfl⟩

theorem test_decode_logic_2 :
    decode [0x83, 0x8E, 0x00, 0x80, 0x0E] = .ok (.orEvSib (.mem (.disp16 .bp 0x8000)) 0x0E, []) ∧
    decode [0x83, 0x20, 0x14] = .ok (.andEvSib (.mem (.base .bxSi)) 0x14, []) ∧
    decode [0x83, 0xB6, 0x00, 0x80, 0x18] = .ok (.xorEvSib (.mem (.disp16 .bp 0x8000)) 0x18, []) ∧
    decode [0x84, 0xC6] = .ok (.testEbGb (.reg .dh) .al, []) ∧
    decode [0x85, 0x18] = .ok (.testEvGv (.mem (.base .bxSi)) .bx, []) ∧
    decode [0xA8, 0x43] = .ok (.testAlIb 0x43, []) ∧
    decode [0xA9, 0x5A, 0x82] = .ok (.testAxIw 0x825A, []) ∧
    decode [0xF6, 0x07, 0x8F] = .ok (.testEbIb (.mem (.base .bx)) 0x8F, []) ∧
    decode [0xF7, 0x43, 0x10, 0xA6, 0xD8] = .ok (.testEvIw (.mem (.disp8 .bpDi 0x10)) 0xD8A6, []) := by
  refine ⟨rfl, rfl, rfl, rfl, rfl, rfl, rfl, rfl, rfl⟩

theorem test_decode_subtract_1 :
    decode [0x18, 0x56, 0xFE] = .ok (.sbbEbGb (.mem (.disp8 .bp 0xFE)) .dl, []) ∧
    decode [0x19, 0xE9] = .ok (.sbbEvGv (.reg .cx) .bp, []) ∧
    decode [0x1A, 0xDC] = .ok (.sbbGbEb .bl (.reg .ah), []) ∧
    decode [0x1B, 0x31] = .ok (.sbbGvEv .si (.mem (.base .bxDi)), []) ∧
    decode [0x1C, 0xAC] = .ok (.sbbAlIb 0xAC, []) ∧
    decode [0x1D, 0x39, 0xE7] = .ok (.sbbAxIw 0xE739, []) ∧
    decode [0x28, 0xD3] = .ok (.subEbGb (.reg .bl) .dl, []) ∧
    decode [0x29, 0xAD, 0x00, 0x01] = .ok (.subEvGv (.mem (.disp16 .di 0x0100)) .bp, []) ∧
    decode [0x2A, 0x9E, 0x00, 0x80] = .ok (.subGbEb .bl (.mem (.disp16 .bp 0x8000)), []) ∧
    decode [0x2B, 0x31] = .ok (.subGvEv .si (.mem (.base .bxDi)), []) ∧
    decode [0x2C, 0xC0] = .ok (.subAlIb 0xC0, []) ∧
    decode [0x2D, 0xC5, 0xFB] = .ok (.subAxIw 0xFBC5, []) ∧
    decode [0x38, 0x56, 0xFE] = .ok (.cmpEbGb (.mem (.disp8 .bp 0xFE)) .dl, []) ∧
    decode [0x39, 0xAD, 0x00, 0x01] = .ok (.cmpEvGv (.mem (.disp16 .di 0x0100)) .bp, []) ∧
    decode [0x3A, 0x9E, 0x00, 0x80] = .ok (.cmpGbEb .bl (.mem (.disp16 .bp 0x8000)), []) ∧
    decode [0x3B, 0xF6] = .ok (.cmpGvEv .si (.reg .si), []) ∧
    decode [0x3C, 0xD4] = .ok (.cmpAlIb 0xD4, []) ∧
    decode [0x3D, 0x51, 0x10] = .ok (.cmpAxIw 0x1051, []) ∧
    decode [0x80, 0xDC, 0xF2] = .ok (.sbbEbIb (.reg .ah) 0xF2, []) ∧
    decode [0x80, 0x28, 0xF6] = .ok (.subEbIb (.mem (.base .bxSi)) 0xF6, []) ∧
    decode [0x80, 0xBE, 0x00, 0x80, 0xFA] = .ok (.cmpEbIb (.mem (.disp16 .bp 0x8000)) 0xFA, []) ∧
    decode [0x81, 0x5B, 0x10, 0x8C, 0x3E] = .ok (.sbbEvIw (.mem (.disp8 .bpDi 0x10)) 0x3E8C, []) ∧
    decode [0x81, 0x29, 0xA8, 0x42] = .ok (.subEvIw (.mem (.base .bxDi)) 0x42A8, []) ∧
    decode [0x81, 0xFC, 0xC4, 0x46] = .ok (.cmpEvIw (.reg .sp) 0x46C4, []) := by
  refine ⟨rfl, rfl, rfl, rfl, rfl, rfl, rfl, rfl, rfl, rfl, rfl, rfl, rfl, rfl, rfl, rfl, rfl, rfl, rfl, rfl, rfl, rfl, rfl, rfl⟩

theorem test_decode_subtract_2 :
    decode [0x83, 0x1E, 0x34, 0x12, 0x12] = .ok (.sbbEvSib (.mem (.direct 0x1234)) 0x12, []) ∧
    decode [0x83, 0xE8, 0x16] = .ok (.subEvSib (.reg .ax) 0x16, []) ∧
    decode [0x83, 0x39, 0x1A] = .ok (.cmpEvSib (.mem (.base .bxDi)) 0x1A, []) := by
  refine ⟨rfl, rfl, rfl⟩

theorem test_decode_unary :
    decode [0x45] = .ok (.incR16 .bp, []) ∧
    decode [0x4B] = .ok (.decR16 .bx, []) ∧
    decode [0xF6, 0x11] = .ok (.notEb (.mem (.base .bxDi)), []) ∧
    decode [0xF6, 0x5A, 0x80] = .ok (.negEb (.mem (.disp8 .bpSi 0x80)), []) ∧
    decode [0xF6, 0xE6] = .ok (.mulEb (.reg .dh), []) ∧
    decode [0xF6, 0x6E, 0xFE] = .ok (.imulEb (.mem (.disp8 .bp 0xFE)), []) ∧
    decode [0xF6, 0x30] = .ok (.divEb (.mem (.base .bxSi)), []) ∧
    decode [0xF6, 0xF9] = .ok (.idivEb (.reg .cl), []) ∧
    decode [0xF7, 0x14] = .ok (.notEv (.mem (.base .si)), []) ∧
    decode [0xF7, 0x19] = .ok (.negEv (.mem (.base .bxDi)), []) ∧
    decode [0xF7, 0xE7] = .ok (.mulEv (.reg .di), []) ∧
    decode [0xF7, 0x2E, 0x34, 0x12] = .ok (.imulEv (.mem (.direct 0x1234)), []) ∧
    decode [0xF7, 0x76, 0xFE] = .ok (.divEv (.mem (.disp8 .bp 0xFE)), []) ∧
    decode [0xF7, 0xFA] = .ok (.idivEv (.reg .dx), []) ∧
    decode [0xFE, 0x85, 0x00, 0x01] = .ok (.incEb (.mem (.disp16 .di 0x0100)), []) ∧
    decode [0xFE, 0x4B, 0x10] = .ok (.decEb (.mem (.disp8 .bpDi 0x10)), []) ∧
    decode [0xFF, 0x04] = .ok (.incEv (.mem (.base .si)), []) ∧
    decode [0xFF, 0xC8] = .ok (.decEv (.reg .ax), []) := by
  refine ⟨rfl, rfl, rfl, rfl, rfl, rfl, rfl, rfl, rfl, rfl, rfl, rfl, rfl, rfl, rfl, rfl, rfl, rfl⟩

theorem test_decode_stack :
    decode [0x51] = .ok (.pushR16 .cx, []) ∧
    decode [0x5F] = .ok (.popR16 .di, []) ∧
    decode [0x8F, 0xC4] = .ok (.popEv (.reg .sp), []) ∧
    decode [0xFF, 0xB5, 0x00, 0x01] = .ok (.pushEv (.mem (.disp16 .di 0x0100)), []) ∧
    decode [0x06] = .ok (.pushEs, []) ∧
    decode [0x07] = .ok (.popEs, []) ∧
    decode [0x0E] = .ok (.pushCs, []) ∧
    decode [0x16] = .ok (.pushSs, []) ∧
    decode [0x17] = .ok (.popSs, []) ∧
    decode [0x1E] = .ok (.pushDs, []) ∧
    decode [0x1F] = .ok (.popDs, []) ∧
    decode [0x9C] = .ok (.pushf, []) ∧
    decode [0x9D] = .ok (.popf, []) := by
  refine ⟨rfl, rfl, rfl, rfl, rfl, rfl, rfl, rfl, rfl, rfl, rfl, rfl, rfl⟩

theorem test_decode_invalid_1 :
    decode [0x6B] = .ok (.inv60 0xB, []) ∧
    decode [0x8C, 0x6A, 0x80] = .ok (.inv8C 1 (.mem (.disp8 .bpSi 0x80)), []) ∧
    decode [0x8D, 0xE1] = .ok (.inv8D .sp .cx, []) ∧
    decode [0x8E, 0xC9] = .ok (.inv8Ecs (.reg .cx), []) ∧
    decode [0x8E, 0x72, 0x80] = .ok (.inv8E 2 (.mem (.disp8 .bpSi 0x80)), []) ∧
    decode [0x8F, 0x18] = .ok (.inv8F 3 (.mem (.base .bxSi)), []) ∧
    decode [0xC4, 0xFC] = .ok (.invC4 .di .sp, []) ∧
    decode [0xC5, 0xEA] = .ok (.invC5 .bp .dx, []) ∧
    decode [0xC6, 0x29] = .ok (.invC6 5 (.mem (.base .bxDi)), []) ∧
    decode [0xC7, 0x18] = .ok (.invC7 3 (.mem (.base .bxSi)), []) ∧
    decode [0xD0, 0x76, 0xFE] = .ok (.invD0r6 (.mem (.disp8 .bp 0xFE)), []) ∧
    decode [0xD1, 0x72, 0x80] = .ok (.invD1r6 (.mem (.disp8 .bpSi 0x80)), []) ∧
    decode [0xD2, 0xF5] = .ok (.invD2r6 (.reg .ch), []) ∧
    decode [0xD3, 0x37] = .ok (.invD3r6 (.mem (.base .bx)), []) ∧
    decode [0xF6, 0xCB] = .ok (.invF6r1 (.reg .bl), []) ∧
    decode [0xF7, 0xCC] = .ok (.invF7r1 (.reg .sp), []) ∧
    decode [0xFE, 0xAE, 0x00, 0x80] = .ok (.invFE 5 (.mem (.disp16 .bp 0x8000)), []) ∧
    decode [0xFF, 0xDC] = .ok (.invFFr3 .sp, []) ∧
    decode [0xFF, 0xEA] = .ok (.invFFr5 .dx, []) ∧
    decode [0xFF, 0xBE, 0x00, 0x80] = .ok (.invFFr7 (.mem (.disp16 .bp 0x8000)), []) ∧
    decode [0x0F] = .ok (.inv0F, []) ∧
    decode [0x82] = .ok (.inv82, []) ∧
    decode [0xC0] = .ok (.invC0, []) ∧
    decode [0xC1] = .ok (.invC1, []) := by
  refine ⟨rfl, rfl, rfl, rfl, rfl, rfl, rfl, rfl, rfl, rfl, rfl, rfl, rfl, rfl, rfl, rfl, rfl, rfl, rfl, rfl, rfl, rfl, rfl, rfl⟩

theorem test_decode_invalid_2 :
    decode [0xC8] = .ok (.invC8, []) ∧
    decode [0xC9] = .ok (.invC9, []) ∧
    decode [0xD6] = .ok (.invD6, []) ∧
    decode [0xF1] = .ok (.invF1, []) := by
  refine ⟨rfl, rfl, rfl, rfl⟩

theorem test_decode_conditional :
    decode [0x70, 0xDB] = .ok (.jo 0xDB, []) ∧
    decode [0x71, 0xDC] = .ok (.jno 0xDC, []) ∧
    decode [0x72, 0xDD] = .ok (.jb 0xDD, []) ∧
    decode [0x73, 0xDE] = .ok (.jnb 0xDE, []) ∧
    decode [0x74, 0xDF] = .ok (.je 0xDF, []) ∧
    decode [0x75, 0xE0] = .ok (.jne 0xE0, []) ∧
    decode [0x76, 0xE1] = .ok (.jbe 0xE1, []) ∧
    decode [0x77, 0xE2] = .ok (.ja 0xE2, []) ∧
    decode [0x78, 0xE3] = .ok (.js 0xE3, []) ∧
    decode [0x79, 0xE4] = .ok (.jns 0xE4, []) ∧
    decode [0x7A, 0xE5] = .ok (.jp 0xE5, []) ∧
    decode [0x7B, 0xE6] = .ok (.jnp 0xE6, []) ∧
    decode [0x7C, 0xE7] = .ok (.jl 0xE7, []) ∧
    decode [0x7D, 0xE8] = .ok (.jge 0xE8, []) ∧
    decode [0x7E, 0xE9] = .ok (.jle 0xE9, []) ∧
    decode [0x7F, 0xEA] = .ok (.jg 0xEA, []) := by
  refine ⟨rfl, rfl, rfl, rfl, rfl, rfl, rfl, rfl, rfl, rfl, rfl, rfl, rfl, rfl, rfl, rfl⟩

theorem test_decode_transfer :
    decode [0x86, 0x73, 0x10] = .ok (.xchgEbGb (.mem (.disp8 .bpDi 0x10)) .dh, []) ∧
    decode [0x87, 0xCC] = .ok (.xchgEvGv (.reg .sp) .cx, []) ∧
    decode [0x8D, 0x4E, 0xFE] = .ok (.leaGvM .cx (.disp8 .bp 0xFE), []) ∧
    decode [0x93] = .ok (.xchgAxR16 .bx, []) ∧
    decode [0xC4, 0x21] = .ok (.lesGvMp .sp (.base .bxDi), []) ∧
    decode [0xC5, 0x10] = .ok (.ldsGvMp .dx (.base .bxSi), []) ∧
    decode [0xE4, 0x85] = .ok (.inAlIb 0x85, []) ∧
    decode [0xE5, 0x86] = .ok (.inAxIb 0x86, []) ∧
    decode [0xE6, 0x87] = .ok (.outIbAl 0x87, []) ∧
    decode [0xE7, 0x88] = .ok (.outIbAx 0x88, []) ∧
    decode [0x90] = .ok (.nop, []) ∧
    decode [0x98] = .ok (.cbw, []) ∧
    decode [0x99] = .ok (.cwd, []) ∧
    decode [0x9E] = .ok (.sahf, []) ∧
    decode [0x9F] = .ok (.lahf, []) ∧
    decode [0xD7] = .ok (.xlat, []) ∧
    decode [0xEC] = .ok (.inAlDx, []) ∧
    decode [0xED] = .ok (.inAxDx, []) ∧
    decode [0xEE] = .ok (.outDxAl, []) ∧
    decode [0xEF] = .ok (.outDxAx, []) := by
  refine ⟨rfl, rfl, rfl, rfl, rfl, rfl, rfl, rfl, rfl, rfl, rfl, rfl, rfl, rfl, rfl, rfl, rfl, rfl, rfl, rfl⟩

theorem test_decode_mov :
    decode [0x88, 0x21] = .ok (.movEbGb (.mem (.base .bxDi)) .ah, []) ∧
    decode [0x89, 0x3E, 0x34, 0x12] = .ok (.movEvGv (.mem (.direct 0x1234)) .di, []) ∧
    decode [0x8A, 0xAD, 0x00, 0x01] = .ok (.movGbEb .ch (.mem (.disp16 .di 0x0100)), []) ∧
    decode [0x8B, 0xC5] = .ok (.movGvEv .ax (.reg .bp), []) ∧
    decode [0x8C, 0x9E, 0x00, 0x80] = .ok (.movEwSw (.mem (.disp16 .bp 0x8000)) .ds, []) ∧
    decode [0x8E, 0xC6] = .ok (.movEsEw (.reg .si), []) ∧
    decode [0x8E, 0x17] = .ok (.movSsEw (.mem (.base .bx)), []) ∧
    decode [0x8E, 0x9E, 0x00, 0x80] = .ok (.movDsEw (.mem (.disp16 .bp 0x8000)), []) ∧
    decode [0xA0, 0x37, 0x7D] = .ok (.movAlOb 0x7D37, []) ∧
    decode [0xA1, 0x3E, 0x7E] = .ok (.movAxOv 0x7E3E, []) ∧
    decode [0xA2, 0x45, 0x7F] = .ok (.movObAl 0x7F45, []) ∧
    decode [0xA3, 0x4C, 0x80] = .ok (.movOvAx 0x804C, []) ∧
    decode [0xB0, 0x46] = .ok (.movR8Ib .al 0x46, []) ∧
    decode [0xBB, 0x76, 0x86] = .ok (.movR16Iw .bx 0x8676, []) ∧
    decode [0xC6, 0x07, 0x53] = .ok (.movEbIb (.mem (.base .bx)) 0x53, []) ∧
    decode [0xC7, 0x42, 0x80, 0xDF, 0x95] = .ok (.movEvIw (.mem (.disp8 .bpSi 0x80)) 0x95DF, []) := by
  refine ⟨rfl, rfl, rfl, rfl, rfl, rfl, rfl, rfl, rfl, rfl, rfl, rfl, rfl, rfl, rfl, rfl⟩

theorem test_decode_transfer_of_control :
    decode [0x9A, 0x29, 0x7B, 0x30, 0x7C] = .ok (.callAp 0x7B29 0x7C30, []) ∧
    decode [0xC2, 0x7D, 0x87] = .ok (.retIw 0x877D, []) ∧
    decode [0xCA, 0xF4, 0x98] = .ok (.retfIw 0x98F4, []) ∧
    decode [0xE0, 0x81] = .ok (.loopne 0x81, []) ∧
    decode [0xE1, 0x82] = .ok (.loope 0x82, []) ∧
    decode [0xE2, 0x83] = .ok (.loop 0x83, []) ∧
    decode [0xE3, 0x84] = .ok (.jcxz 0x84, []) ∧
    decode [0xE8, 0x3D, 0xC9] = .ok (.callRel16 0xC93D, []) ∧
    decode [0xE9, 0x44, 0xCA] = .ok (.jmpRel16 0xCA44, []) ∧
    decode [0xEA, 0x4B, 0xCB, 0x52, 0xCC] = .ok (.jmpAp 0xCB4B 0xCC52, []) ∧
    decode [0xEB, 0x8D] = .ok (.jmpRel8 0x8D, []) ∧
    decode [0xFF, 0x52, 0x80] = .ok (.callEv (.mem (.disp8 .bpSi 0x80)), []) ∧
    decode [0xFF, 0x1E, 0x34, 0x12] = .ok (.callMp (.direct 0x1234), []) ∧
    decode [0xFF, 0xE3] = .ok (.jmpEv (.reg .bx), []) ∧
    decode [0xFF, 0x28] = .ok (.jmpMp (.base .bxSi), []) ∧
    decode [0xC3] = .ok (.ret, []) ∧
    decode [0xCB] = .ok (.retf, []) := by
  refine ⟨rfl, rfl, rfl, rfl, rfl, rfl, rfl, rfl, rfl, rfl, rfl, rfl, rfl, rfl, rfl, rfl, rfl⟩

theorem test_decode_system :
    decode [0xCD, 0x5B] = .ok (.intIb 0x5B, []) ∧
    decode [0xDD, 0x76, 0xFE] = .ok (.esc 5 6 (.mem (.disp8 .bp 0xFE)), []) ∧
    decode [0x9B] = .ok (.wait, []) ∧
    decode [0xCC] = .ok (.int3, []) ∧
    decode [0xCE] = .ok (.into, []) ∧
    decode [0xCF] = .ok (.iret, []) ∧
    decode [0xF4] = .ok (.hlt, []) ∧
    decode [0xF5] = .ok (.cmc, []) ∧
    decode [0xF8] = .ok (.clc, []) ∧
    decode [0xF9] = .ok (.stc, []) ∧
    decode [0xFA] = .ok (.cli, []) ∧
    decode [0xFB] = .ok (.sti, []) ∧
    decode [0xFC] = .ok (.cld, []) ∧
    decode [0xFD] = .ok (.std, []) := by
  refine ⟨rfl, rfl, rfl, rfl, rfl, rfl, rfl, rfl, rfl, rfl, rfl, rfl, rfl, rfl⟩

theorem test_decode_rotate :
    decode [0xD0, 0x07] = .ok (.rolEb1 (.mem (.base .bx)), []) ∧
    decode [0xD0, 0xC8] = .ok (.rorEb1 (.reg .al), []) ∧
    decode [0xD0, 0x14] = .ok (.rclEb1 (.mem (.base .si)), []) ∧
    decode [0xD0, 0x19] = .ok (.rcrEb1 (.mem (.base .bxDi)), []) ∧
    decode [0xD1, 0x85, 0x00, 0x01] = .ok (.rolEv1 (.mem (.disp16 .di 0x0100)), []) ∧
    decode [0xD1, 0x4B, 0x10] = .ok (.rorEv1 (.mem (.disp8 .bpDi 0x10)), []) ∧
    decode [0xD1, 0xD1] = .ok (.rclEv1 (.reg .cx), []) ∧
    decode [0xD1, 0x9E, 0x00, 0x80] = .ok (.rcrEv1 (.mem (.disp16 .bp 0x8000)), []) ∧
    decode [0xD2, 0xC7] = .ok (.rolEbCl (.reg .bh), []) ∧
    decode [0xD2, 0x08] = .ok (.rorEbCl (.mem (.base .bxSi)), []) ∧
    decode [0xD2, 0x95, 0x00, 0x01] = .ok (.rclEbCl (.mem (.disp16 .di 0x0100)), []) ∧
    decode [0xD2, 0xDA] = .ok (.rcrEbCl (.reg .dl), []) ∧
    decode [0xD3, 0x42, 0x80] = .ok (.rolEvCl (.mem (.disp8 .bpSi 0x80)), []) ∧
    decode [0xD3, 0xC8] = .ok (.rorEvCl (.reg .ax), []) ∧
    decode [0xD3, 0x56, 0xFE] = .ok (.rclEvCl (.mem (.disp8 .bp 0xFE)), []) ∧
    decode [0xD3, 0x18] = .ok (.rcrEvCl (.mem (.base .bxSi)), []) := by
  refine ⟨rfl, rfl, rfl, rfl, rfl, rfl, rfl, rfl, rfl, rfl, rfl, rfl, rfl, rfl, rfl, rfl⟩

theorem test_decode_shift :
    decode [0xD0, 0xE3] = .ok (.shlEb1 (.reg .bl), []) ∧
    decode [0xD0, 0x2E, 0x34, 0x12] = .ok (.shrEb1 (.mem (.direct 0x1234)), []) ∧
    decode [0xD0, 0xFE] = .ok (.sarEb1 (.reg .dh), []) ∧
    decode [0xD1, 0x24] = .ok (.shlEv1 (.mem (.base .si)), []) ∧
    decode [0xD1, 0xEC] = .ok (.shrEv1 (.reg .sp), []) ∧
    decode [0xD1, 0x3E, 0x34, 0x12] = .ok (.sarEv1 (.mem (.direct 0x1234)), []) ∧
    decode [0xD2, 0x27] = .ok (.shlEbCl (.mem (.base .bx)), []) ∧
    decode [0xD2, 0xAE, 0x00, 0x80] = .ok (.shrEbCl (.mem (.disp16 .bp 0x8000)), []) ∧
    decode [0xD2, 0x39] = .ok (.sarEbCl (.mem (.base .bxDi)), []) ∧
    decode [0xD3, 0xE3] = .ok (.shlEvCl (.reg .bx), []) ∧
    decode [0xD3, 0x6B, 0x10] = .ok (.shrEvCl (.mem (.disp8 .bpDi 0x10)), []) ∧
    decode [0xD3, 0xFE] = .ok (.sarEvCl (.reg .si), []) := by
  refine ⟨rfl, rfl, rfl, rfl, rfl, rfl, rfl, rfl, rfl, rfl, rfl, rfl⟩

theorem test_decode_bcd :
    decode [0xD4, 0x7C] = .ok (.aam 0x7C, []) ∧
    decode [0xD5, 0x7D] = .ok (.aad 0x7D, []) ∧
    decode [0x27] = .ok (.daa, []) ∧
    decode [0x2F] = .ok (.das, []) ∧
    decode [0x37] = .ok (.aaa, []) ∧
    decode [0x3F] = .ok (.aas, []) := by
  refine ⟨rfl, rfl, rfl, rfl, rfl, rfl⟩

theorem test_decode_chain :
    decode [0x26] = .ok (.segEs, []) ∧
    decode [0x2E] = .ok (.segCs, []) ∧
    decode [0x36] = .ok (.segSs, []) ∧
    decode [0x3E] = .ok (.segDs, []) ∧
    decode [0xF0] = .ok (.lock, []) ∧
    decode [0xF2] = .ok (.repne, []) ∧
    decode [0xF3] = .ok (.rep, []) := by
  refine ⟨rfl, rfl, rfl, rfl, rfl, rfl, rfl⟩

theorem test_decode_string :
    decode [0xA4] = .ok (.movsb, []) ∧
    decode [0xA5] = .ok (.movsw, []) ∧
    decode [0xA6] = .ok (.cmpsb, []) ∧
    decode [0xA7] = .ok (.cmpsw, []) ∧
    decode [0xAA] = .ok (.stosb, []) ∧
    decode [0xAB] = .ok (.stosw, []) ∧
    decode [0xAC] = .ok (.lodsb, []) ∧
    decode [0xAD] = .ok (.lodsw, []) ∧
    decode [0xAE] = .ok (.scasb, []) ∧
    decode [0xAF] = .ok (.scasw, []) := by
  refine ⟨rfl, rfl, rfl, rfl, rfl, rfl, rfl, rfl, rfl, rfl⟩

-- 30_encoding.md R165, R134: codes that share an opcode byte
theorem test_decode_shared_opcodes :
    decode [0x90] = .ok (.nop, []) ∧ decode [0x8F, 0xC0] = .ok (.popEv (.reg .ax), []) ∧
    decode [0xFE, 0xC8] = .ok (.decEb (.reg .al), []) ∧ decode [0x8E, 0xC8] = .ok (.inv8Ecs (.reg .ax), []) ∧
    decode [0xFF, 0xDB] = .ok (.invFFr3 .bx, []) ∧ decode [0xF6, 0x0E, 0x34, 0x12] = .ok (.invF6r1 (.mem (.direct 0x1234)), []) :=
  ⟨rfl, rfl, rfl, rfl, rfl, rfl⟩

-- What the decoder refuses: bytes that end before the instruction does
theorem test_decode_refuses_short_input : (decode []).isOk = false ∧ (decode [0xB8, 0x34]).isOk = false := ⟨rfl, rfl⟩

/-! ### Single steps -/

-- 95_test_vectors.md S4; 95_test_vectors.md V7.1; 95_test_vectors.md V7.2; 95_test_vectors.md V7.5; 95_test_vectors.md V4.11
theorem test_addition :
    ends ((machine 0x0100 [0x04, 0x01]).setReg8 .al 0x7F)
      (fun t => t.reg8 .al == 0x80 && t.flag .OF && t.flag .SF && !t.flag .ZF && !t.flag .CF && t.flag .AF && !t.flag .PF) = true ∧
    ends ((machine 0x0100 [0x05, 0x01, 0x00]).setReg .ax 0xFFFF)
      (fun t => t.reg .ax == 0x0000 && t.flag .CF && t.flag .AF && !t.flag .OF && !t.flag .SF && t.flag .ZF && t.flag .PF) = true ∧
    ends (((machine 0x0100 [0x01, 0xD8]).setReg .ax 0x1234).setReg .bx 0x4321)
      (fun t => t.reg .ax == 0x5555 && !t.flag .CF && !t.flag .AF && !t.flag .OF && !t.flag .SF && !t.flag .ZF && t.flag .PF) = true ∧
    ends ((((machine 0x0100 [0x10, 0xD8]).setReg8 .al 0xFF).setReg8 .bl 0xFF).setFlag .CF true)
      (fun t => t.reg8 .al == 0xFF && t.flag .CF && t.flag .AF && !t.flag .OF && t.flag .SF && !t.flag .ZF && t.flag .PF) = true ∧
    ends ((machine 0x0100 [0x83, 0xC0, 0xFF]).setReg .ax 0x0005)
      (fun t => t.reg .ax == 0x0004 && t.flag .CF && t.ip == 0x0103) = true := by decide +kernel
-- 95_test_vectors.md V7.6; 95_test_vectors.md V7.9; 95_test_vectors.md V7.10; 95_test_vectors.md V7.14
theorem test_subtraction :
    ends (((machine 0x0100 [0x28, 0xD8]).setReg8 .al 0x7F).setReg8 .bl 0xFF)
      (fun t => t.reg8 .al == 0x80 && t.flag .CF && t.flag .OF && t.flag .SF && !t.flag .AF && !t.flag .ZF && !t.flag .PF) = true ∧
    ends (((machine 0x0100 [0x1D, 0x00, 0x00]).setReg .ax 0x0000).setFlag .CF true)
      (fun t => t.reg .ax == 0xFFFF && t.flag .CF && t.flag .AF && t.flag .SF && t.flag .PF && !t.flag .OF && !t.flag .ZF) = true ∧
    ends ((machine 0x0100 [0x3C, 0x05]).setReg8 .al 0x05)
      (fun t => t.reg8 .al == 0x05 && t.flag .ZF && !t.flag .CF && !t.flag .OF && !t.flag .AF && !t.flag .SF && t.flag .PF) = true ∧
    ends ((machine 0x0100 [0xF6, 0xD8]).setReg8 .al 0x80)
      (fun t => t.reg8 .al == 0x80 && t.flag .CF && t.flag .OF && t.flag .SF && !t.flag .AF && !t.flag .PF) = true := by decide +kernel
-- 95_test_vectors.md V7.11; 95_test_vectors.md V7.12; 95_test_vectors.md V9.4
theorem test_increment_and_decrement_keep_cf :
    ends (((machine 0x0100 [0x48]).setReg .ax 0x8000).setFlag .CF true)
      (fun t => t.reg .ax == 0x7FFF && t.flag .OF && t.flag .AF && !t.flag .SF && !t.flag .ZF && t.flag .PF && t.flag .CF) = true ∧
    ends ((machine 0x0100 [0x40]).setReg .ax 0xFFFF)
      (fun t => t.reg .ax == 0x0000 && t.flag .ZF && t.flag .AF && t.flag .PF && !t.flag .OF && !t.flag .SF && !t.flag .CF) = true ∧
    ends ((((machine 0x0100 [0xF6, 0x17]).holding 0x00200 [0x0F]).setReg .bx 0x0200).setFlags16 0xF8D7)
      (fun t => t.peek 0x200 == 0xF0 && t.flags == 0xF8D7) = true := by decide +kernel
-- 95_test_vectors.md V7.15; 95_test_vectors.md V7.17; 95_test_vectors.md V7.19
theorem test_word_products :
    ends (((machine 0x0100 [0xF7, 0xE3]).setReg .ax 0x1234).setReg .bx 0x0100)
      (fun t => t.reg .dx == 0x0012 && t.reg .ax == 0x3400) = true ∧
    ends (((machine 0x0100 [0xF6, 0xEB]).setReg8 .al 0xFE).setReg8 .bl 0x03)
      (fun t => t.reg .ax == 0xFFFA) = true ∧
    ends (((machine 0x0100 [0xF7, 0xEB]).setReg .ax 0x8000).setReg .bx 0x8000)
      (fun t => t.reg .dx == 0x4000 && t.reg .ax == 0x0000) = true := by decide +kernel
-- 95_test_vectors.md V7.20; 95_test_vectors.md V7.22; 95_test_vectors.md V7.26; 95_test_vectors.md V7.27
theorem test_quotients :
    ends (((((machine 0x0100 [0xF7, 0xF3]).setReg .dx 0x0001).setReg .ax 0x0000).setReg .bx 0x0002).setFlags16 0xFFD7)
      (fun t => t.reg .dx == 0x0000 && t.reg .ax == 0x8000 && t.flags == 0xF702) = true ∧
    ends ((((((machine 0x0100 [0xF6, 0xF3]).holding 0x00000 [0x00, 0x06, 0x00, 0x00]).setReg .ax 0x1234).setReg8 .bl 0x00).setFlags16
      0xF202).setReg .sp 0x1000)
      (fun t => t.reg .ax == 0x1234 && t.reg8 .bl == 0x00) = true ∧
    ends ((((machine 0x0100 [0xF7, 0xFB]).setReg .dx 0xFFFF).setReg .ax 0xFFF9).setReg .bx 0x0002)
      (fun t => t.reg .ax == 0xFFFD && t.reg .dx == 0xFFFF) = true ∧
    ends (((machine 0x0100 [0xF2, 0xF6, 0xFB]).setReg .ax 0x0007).setReg8 .bl 0x02)
      (fun t => t.reg8 .al == 0xFD && t.reg8 .ah == 0x01) = true := by decide +kernel
-- 95_test_vectors.md V8.2; 95_test_vectors.md V8.4; 95_test_vectors.md V8.5; 95_test_vectors.md V8.11; 95_test_vectors.md V8.13;
-- 95_test_vectors.md V8.14
theorem test_ascii_and_base_adjust :
    ends ((machine 0x0100 [0x37]).setReg .ax 0x000A)
      (fun t => t.reg .ax == 0x0100) = true ∧
    ends ((machine 0x0100 [0x37]).setReg .ax 0xFF0B)
      (fun t => t.reg .ax == 0x0001) = true ∧
    ends (((machine 0x0100 [0x3F]).setReg .ax 0x0000).setFlag .AF true)
      (fun t => t.reg .ax == 0xFF0A) = true ∧
    ends ((machine 0x0100 [0xD4, 0x10]).setReg8 .al 0x3F)
      (fun t => t.reg .ax == 0x030F) = true ∧
    ends ((machine 0x0100 [0xD5, 0x10]).setReg .ax 0x030F)
      (fun t => t.reg .ax == 0x003F) = true ∧
    ends ((machine 0x0100 [0xD5, 0x0A]).setReg .ax 0x1A05)
      (fun t => t.reg .ax == 0x0009) = true := by decide +kernel
-- 95_test_vectors.md V9.7; 95_test_vectors.md V9.8; 95_test_vectors.md V9.9; 95_test_vectors.md V9.14; By hand from 44_logic_shift.md
-- R401, R408; By hand from 44_logic_shift.md R403, R408; By hand from 44_logic_shift.md R404, R408
theorem test_rotates :
    ends ((((machine 0x0100 [0xD2, 0xE0]).setReg8 .al 0x81).setReg8 .cl 0x00).setFlags16 0xF8D7)
      (fun t => t.reg8 .al == 0x81 && t.flags == 0xF8D7) = true ∧
    ends (((machine 0x0100 [0xD3, 0xC0]).setReg .ax 0x1234).setReg8 .cl 0x10)
      (fun t => t.reg .ax == 0x1234 && !t.flag .CF && !t.flag .OF) = true ∧
    ends (((machine 0x0100 [0xD2, 0xD0]).setReg8 .al 0x55).setReg8 .cl 0x09)
      (fun t => t.reg8 .al == 0x55 && !t.flag .CF && !t.flag .OF) = true ∧
    ends ((machine 0x0100 [0xD0, 0xC8]).setReg8 .al 0x01)
      (fun t => t.reg8 .al == 0x80 && t.flag .CF && t.flag .OF) = true ∧
    ends ((machine 0x0100 [0xD0, 0xC0]).setReg8 .al 0x81)
      (fun t => t.reg8 .al == 0x03 && t.flag .CF && t.flag .OF) = true ∧
    ends ((machine 0x0100 [0xD0, 0xD0]).setReg8 .al 0x80)
      (fun t => t.reg8 .al == 0x00 && t.flag .CF && t.flag .OF) = true ∧
    ends (((machine 0x0100 [0xD0, 0xD8]).setReg8 .al 0x01).setFlag .CF true)
      (fun t => t.reg8 .al == 0x80 && t.flag .CF && t.flag .OF) = true := by decide +kernel
-- 95_test_vectors.md V4.8; 95_test_vectors.md V4.9; 95_test_vectors.md V4.10; 95_test_vectors.md V4.12; 95_test_vectors.md V6.2;
-- 95_test_vectors.md V6.3
theorem test_moves :
    ends ((machine 0x0100 [0x89, 0xD8]).setReg .bx 0x0077)
      (fun t => t.reg .ax == 0x0077 && t.ip == 0x0102) = true ∧
    ends ((machine 0x0100 [0x88, 0xE0]).setReg .ax 0x1234)
      (fun t => t.reg .ax == 0x1212) = true ∧
    ends ((machine 0x0100 [0x80, 0x06, 0x00, 0x02, 0x05]).holding 0x00200 [0x10])
      (fun t => t.peek 0x200 == 0x15 && t.ip == 0x0105) = true ∧
    ends ((machine 0x0100 [0xC7, 0x86, 0x00, 0x01, 0x34, 0x12]).setReg .bp 0x0200)
      (fun t => t.peek 0x300 == 0x34 && t.peek 0x301 == 0x12 && t.ip == 0x0106) = true ∧
    ends ((machine 0x0100 [0xA1, 0x00, 0x04]).holding 0x00400 [0x78, 0x56])
      (fun t => t.reg .ax == 0x5678) = true ∧
    ends (((machine 0x0100 [0x26, 0xA1, 0x00, 0x04]).holding 0x00500 [0x78, 0x56]).setSReg .es 0x0010)
      (fun t => t.reg .ax == 0x5678) = true ∧
    ends ((machine 0x0100 [0xA2, 0x00, 0x04]).setReg8 .al 0x9A)
      (fun t => t.peek 0x400 == 0x9A && t.ip == 0x0103) = true := by decide +kernel
-- 95_test_vectors.md V3.8; 95_test_vectors.md V4.3; 95_test_vectors.md V4.6; 95_test_vectors.md V5.7
theorem test_segments_and_wrapping :
    ends ((((machine 0x0100 [0x89, 0x07]).setSReg .ds 0xFFFF).setReg .bx 0x000F).setReg .ax 0x1122)
      (fun t => t.peek 0xFFFFF == 0x22 && t.peek 0x0 == 0x11) = true ∧
    ends ((((machine 0x0100 [0x8B, 0x06, 0x34, 0x12]).holding 0x11234 [0xEF, 0xBE]).setSReg .ds 0x1000).setSReg .ss 0x2000)
      (fun t => t.reg .ax == 0xBEEF && t.ip == 0x0104) = true ∧
    ends (((machine 0x0100 [0x2E, 0x8B, 0x46, 0x00]).holding 0x00010 [0xEF, 0xBE]).setReg .bp 0x0010)
      (fun t => t.reg .ax == 0xBEEF && t.ip == 0x0104 && t.instructionCount == 1) = true ∧
    ends ((machine 0xFFFF [0xB0]).holding 0x00000 [0x7F])
      (fun t => t.reg8 .al == 0x7F && t.ip == 0x0001) = true := by decide +kernel
-- 95_test_vectors.md V6.4; 95_test_vectors.md V6.5; 95_test_vectors.md V6.7
theorem test_stack :
    ends ((machine 0x0100 [0x50]).setReg .ax 0x1234)
      (fun t => t.reg .sp == 0xFFFE && t.peek 0xFFFE == 0x34 && t.peek 0xFFFF == 0x12) = true ∧
    ends ((machine 0x0100 [0x54]).setReg .sp 0x0100)
      (fun t => t.reg .sp == 0x00FE && t.peek 0xFE == 0xFE && t.peek 0xFF == 0x00) = true ∧
    ends (((machine 0x0100 [0x5C]).holding 0x000FE [0x34, 0x12]).setReg .sp 0x00FE)
      (fun t => t.reg .sp == 0x1234) = true := by decide +kernel
-- 95_test_vectors.md V6.8; 95_test_vectors.md V6.9; By hand from 41_data_transfer.md R267; By hand from 41_data_transfer.md R268;
-- 95_test_vectors.md V6.12
theorem test_address_loads :
    ends ((((machine 0x0100 [0xD7]).holding 0x00103 [0x55]).setReg .bx 0x0100).setReg8 .al 0x03)
      (fun t => t.reg8 .al == 0x55) = true ∧
    ends (((machine 0x0100 [0x8D, 0x03]).setReg .bp 0xFFFF).setReg .di 0x0002)
      (fun t => t.reg .ax == 0x0001) = true ∧
    ends (((machine 0x0100 [0xC5, 0x37]).holding 0x00200 [0x34, 0x12, 0x00, 0x20]).setReg .bx 0x0200)
      (fun t => t.reg .si == 0x1234 && t.sreg .ds == 0x2000) = true ∧
    ends (((machine 0x0100 [0xC4, 0x3F]).holding 0x00200 [0x00, 0x01, 0x00, 0xB8]).setReg .bx 0x0200)
      (fun t => t.reg .di == 0x0100 && t.sreg .es == 0xB800) = true ∧
    ends ((((machine 0x0100 [0x86, 0x07]).holding 0x00200 [0x22]).setReg8 .al 0x11).setReg .bx 0x0200)
      (fun t => t.reg8 .al == 0x22 && t.peek 0x200 == 0x11) = true := by decide +kernel
-- 95_test_vectors.md V6.10; 95_test_vectors.md V6.11; 95_test_vectors.md V2.5; By hand from 41_data_transfer.md R271: AH = 0xFF, OF, DF
-- and IF as they were
theorem test_conversions_and_flag_transfers :
    ends ((machine 0x0100 [0x98]).setReg .ax 0x0080)
      (fun t => t.reg .ax == 0xFF80) = true ∧
    ends (((machine 0x0100 [0x99]).setReg .ax 0x7FFF).setReg .dx 0xFFFF)
      (fun t => t.reg .dx == 0x0000) = true ∧
    ends ((machine 0x0100 [0x9F]).setFlags16 0xF8D7)
      (fun t => t.reg8 .ah == 0xD7) = true ∧
    ends (((machine 0x0100 [0x9E]).setFlags16 0xF802).setReg8 .ah 0xFF)
      (fun t => t.flags == 0xF8D7) = true := by decide +kernel
-- 95_test_vectors.md S7; 95_test_vectors.md V10.1; 95_test_vectors.md V10.2; 95_test_vectors.md V10.8; 95_test_vectors.md V10.6
theorem test_moving_strings :
    ends (((((machine 0x0100 [0xF3, 0xAA]).setSReg .es 0x1000).setReg .di 0x0010).setReg .cx 0x0003).setReg8 .al 0x5A)
      (fun t => t.peek 0x10010 == 0x5A && t.peek 0x10011 == 0x5A && t.peek 0x10012 == 0x5A && t.peek 0x10013 == 0x00 && t.reg .di ==
        0x0013 && t.reg .cx == 0x0000 && t.flags == 0xF002 && t.ip == 0x0102 && t.instructionCount == 1) = true ∧
    ends (((((machine 0x0100 [0xA5]).holding 0x00200 [0x34, 0x12]).setReg .si 0x0200).setReg .di 0x0300).setFlag .DF true)
      (fun t => t.peek 0x300 == 0x34 && t.peek 0x301 == 0x12 && t.reg .si == 0x01FE && t.reg .di == 0x02FE) = true ∧
    ends ((((machine 0x0100 [0x26, 0xA4]).holding 0x01000 [0x66]).setSReg .es 0x0100).setReg .di 0x0010)
      (fun t => t.peek 0x1010 == 0x66) = true ∧
    ends (((((machine 0x0100 [0xF3, 0xA4]).holding 0x00200 [0xAA]).setReg .si 0x0200).setReg .di 0x0201).setReg .cx 0x0003)
      (fun t => t.peek 0x201 == 0xAA && t.peek 0x202 == 0xAA && t.peek 0x203 == 0xAA) = true ∧
    ends (((machine 0x0100 [0xAC]).holding 0x0FFFF [0x77]).setReg .si 0xFFFF)
      (fun t => t.reg8 .al == 0x77 && t.reg .si == 0x0000) = true := by decide +kernel
-- 95_test_vectors.md V10.4; 95_test_vectors.md V10.5; The worked example of 45_string.md R442
theorem test_comparing_strings :
    ends ((((((machine 0x0100 [0xF3, 0xA6]).holding 0x00400 [0x41, 0x42, 0x43]).holding 0x00200 [0x41, 0x58, 0x43]).setReg .si
      0x0400).setReg .di 0x0200).setReg .cx 0x0003)
      (fun t => t.reg .cx == 0x0001 && t.reg .si == 0x0402 && t.reg .di == 0x0202 && t.flag .CF && t.flag .SF && !t.flag .OF && t.flag
        .AF && !t.flag .PF && !t.flag .ZF) = true ∧
    ends (((((machine 0x0100 [0xF2, 0xAF]).holding 0x00300 [0x01, 0x00, 0x02, 0x00]).setReg .di 0x0300).setReg .cx 0x0002).setReg .ax
      0x0000)
      (fun t => t.reg .cx == 0x0000 && t.reg .di == 0x0304 && !t.flag .ZF && t.flag .CF) = true ∧
    ends ((((machine 0x0100 [0xF2, 0xAE]).holding 0x00300 [0x48, 0x49, 0x00]).setReg .cx 0x0010).setReg .di 0x0300)
      (fun t => t.reg .cx == 0x000D && t.flag .ZF && t.reg .di == 0x0303 && !t.flag .CF) = true := by decide +kernel
-- 95_test_vectors.md V11.5; 95_test_vectors.md V11.6; 95_test_vectors.md V11.13
theorem test_relative_jumps :
    ends (machine 0x0180 [0x7F, 0x80]) (fun t => t.ip == 0x0102) = true ∧
    ends (machine 0xFFF0 [0xE9, 0x20, 0x00]) (fun t => t.ip == 0x0013) = true ∧
    ends ((machine 0x0100 [0xE3, 0x10]).setReg .cx 0x0001)
      (fun t => t.reg .cx == 0x0001 && t.ip == 0x0102) = true := by decide +kernel
-- 95_test_vectors.md V11.10; 95_test_vectors.md V11.11; 95_test_vectors.md V11.12
theorem test_loops :
    ends (machine 0x0100 [0xE2, 0x10])
      (fun t => t.reg .cx == 0xFFFF && t.ip == 0x0112) = true ∧
    ends (((machine 0x0100 [0xE1, 0x10]).setReg .cx 0x0002).setFlag .ZF true)
      (fun t => t.reg .cx == 0x0001 && t.ip == 0x0112) = true ∧
    ends ((machine 0x0100 [0xE0, 0x10]).setReg .cx 0x0001)
      (fun t => t.reg .cx == 0x0000 && t.ip == 0x0102) = true := by decide +kernel
-- 95_test_vectors.md V11.7; By hand from 46_control.md R495; By hand from 46_control.md R496; By hand from 46_control.md R498; By hand
-- from 46_control.md R494
theorem test_calls_and_far_jumps :
    ends ((machine 0x0100 [0xFF, 0xD4]).setReg .sp 0x1000)
      (fun t => t.ip == 0x1000 && t.reg .sp == 0x0FFE && t.peek 0xFFE == 0x02 && t.peek 0xFFF == 0x01) = true ∧
    ends ((machine 0x0100 [0xE8, 0x00, 0x02]).setReg .sp 0x1000)
      (fun t => t.peek 0xFFE == 0x03 && t.peek 0xFFF == 0x01 && t.reg .sp == 0x0FFE && t.ip == 0x0303) = true ∧
    ends ((machine 0x0100 [0x9A, 0x00, 0x02, 0x00, 0x30]).setReg .sp 0x1000)
      (fun t => t.peek 0xFFE == 0x00 && t.peek 0xFFC == 0x05 && t.peek 0xFFD == 0x01 && t.reg .sp == 0x0FFC && t.sreg .cs == 0x3000 &&
        t.ip == 0x0200) = true ∧
    ends ((((machine 0x0100 [0xFF, 0x1F]).holding 0x00200 [0x00, 0x01, 0x00, 0x20]).setReg .sp 0x1000).setReg .bx 0x0200)
      (fun t => t.peek 0xFFC == 0x02 && t.peek 0xFFD == 0x01 && t.reg .sp == 0x0FFC && t.sreg .cs == 0x2000 && t.ip == 0x0100) = true ∧
    ends (((machine 0x0100 [0xFF, 0x2F]).holding 0x00200 [0x00, 0x01, 0x00, 0x20]).setReg .bx 0x0200)
      (fun t => t.sreg .cs == 0x2000 && t.ip == 0x0100) = true := by decide +kernel
-- 95_test_vectors.md V11.8; 95_test_vectors.md V11.9; By hand from 46_control.md R503; 95_test_vectors.md V12.5
theorem test_returns :
    ends (((machine 0x0100 [0xC2, 0x04, 0x00]).holding 0x00FFE [0x00, 0x02]).setReg .sp 0x0FFE)
      (fun t => t.ip == 0x0200 && t.reg .sp == 0x1004) = true ∧
    ends (((machine 0x0100 [0xCB]).holding 0x00FFC [0x00, 0x03, 0x00, 0x40]).setReg .sp 0x0FFC)
      (fun t => t.ip == 0x0300 && t.sreg .cs == 0x4000 && t.reg .sp == 0x1000) = true ∧
    ends (((machine 0x0100 [0xCA, 0x04, 0x00]).holding 0x00FF8 [0x05, 0x01, 0x00, 0x30]).setReg .sp 0x0FF8)
      (fun t => t.ip == 0x0105 && t.sreg .cs == 0x3000 && t.reg .sp == 0x1000) = true ∧
    ends ((machine 0x0100 [0xCF]).setReg .sp 0x0FFA)
      (fun t => t.flags == 0xF002 && t.reg .sp == 0x1000) = true := by decide +kernel
-- 95_test_vectors.md S8; 95_test_vectors.md V12.2; 95_test_vectors.md V12.3; 95_test_vectors.md V12.4
theorem test_software_interrupts :
    ends ((((machine 0x0100 [0xCD, 0x21]).holding 0x00084 [0x00, 0x05, 0x00, 0x00]).setReg .sp 0x1000).setFlags16 0xF202)
      (fun t => t.reg .sp == 0x0FFA && t.peek 0xFFA == 0x02 && t.peek 0xFFB == 0x01 && t.peek 0xFFC == 0x00 && t.peek 0xFFD == 0x00 &&
        t.peek 0xFFE == 0x02 && t.peek 0xFFF == 0xF2 && t.flags == 0xF002 && t.sreg .cs == 0x0000 && t.ip == 0x0500 && t.calls.head? ==
        some (.interrupt 0x21)) = true ∧
    ends (((machine 0x0100 [0xCC]).holding 0x0000C [0x00, 0x07, 0x00, 0x00]).setReg .sp 0x1000)
      (fun t => t.peek 0xFFA == 0x01 && t.peek 0xFFB == 0x01 && t.ip == 0x0700 && t.calls.head? == some (.interrupt 0x03)) = true ∧
    ends (machine 0x0100 [0xCE]) (fun t => t.ip == 0x0101) = true ∧
    ends ((((machine 0x0100 [0xCE]).holding 0x00010 [0x00, 0x08, 0x00, 0x00]).setFlag .OF true).setReg .sp 0x1000)
      (fun t => t.peek 0xFFA == 0x01 && t.ip == 0x0800 && t.calls.head? == some (.interrupt 0x04)) = true := by decide +kernel
-- 95_test_vectors.md V12.10; 95_test_vectors.md V12.11; 95_test_vectors.md V12.12; By hand from 60_exceptions.md R590
theorem test_single_step :
    ends ((machine 0x0100 [0x90]).setFlag .TF true)
      (fun t => t.ip == 0x0101) = true ∧
    ends (((((machine 0x0100 [0x90]).holding 0x00004 [0x00, 0x09, 0x00, 0x00]).setFlag .TF true).setReg .sp 0x1000).stepping)
      (fun t => t.ip == 0x0900 && !t.flag .TF && t.peek 0xFFA == 0x01 && t.peek 0xFFB == 0x01 && t.peek 0xFFF == 0xF1 && t.calls.head? ==
        some (.interrupt 0x01)) = true ∧
    ends (((((machine 0x0100 [0xCD, 0x21]).holding 0x00084 [0x00, 0x05, 0x00, 0x00]).setFlag .TF true).setReg .sp 0x1000).stepping)
      (fun t => t.ip == 0x0500 && t.reg .sp == 0x0FFA && t.calls.head? == some (.interrupt 0x21)) = true ∧
    ends ((((machine 0x0100 [0x8E, 0xD8]).setFlag .TF true).setReg .sp 0x1000).stepping)
      (fun t => t.ip == 0x0102 && t.reg .sp == 0x1000) = true := by decide +kernel
-- 95_test_vectors.md V12.7; 95_test_vectors.md V12.9; 95_test_vectors.md V5.2; 95_test_vectors.md V4.14; 95_test_vectors.md V4.16
theorem test_halt_esc_lock_invalid :
    ends (machine 0x0100 [0xF4])
      (fun t => t.ip == 0x0101 && t.instructionCount == 0 && t.runState == .halted) = true ∧
    ends (machine 0x0100 [0xDC, 0x87, 0x00, 0x10]) (fun t => t.ip == 0x0104) = true ∧
    ends (machine 0x0100 [0xF0, 0x90])
      (fun t => t.ip == 0x0102 && t.instructionCount == 1) = true ∧
    ends (((machine 0x0100 [0x0F]).setFlags16 0xF003).setReg .ax 0x0000)
      (fun t => t.ip == 0x0101 && t.reg .ax == 0x0000 && t.flags == 0xF003 && t.instructionCount == 1) = true ∧
    ends (((machine 0x0100 [0x8E, 0xC8]).setFlags16 0xF003).setReg .ax 0x0000)
      (fun t => t.ip == 0x0102 && t.reg .ax == 0x0000 && t.flags == 0xF003 && t.instructionCount == 1) = true := by decide +kernel

-- 95_test_vectors.md V6.1
theorem test_mov_register_immediate :
    ends (machine 0x0100 [0xB0, 0xFF]) (fun t => t.reg .ax == 0x00FF) = true ∧
    ends (machine 0x0100 [0xB4, 0x01]) (fun t => t.reg .ax == 0x0100) = true ∧
    ends (machine 0x0100 [0xBC, 0x00, 0x10]) (fun t => t.reg .sp == 0x1000 && t.ip == 0x0103) = true := by decide +kernel
-- By hand from 41_data_transfer.md R241, R245, R246
theorem test_mov_segment_registers :
    ends ((machine 0x0100 [0x8E, 0xD8]).setReg .ax 0x2000) (fun t => t.sreg .ds == 0x2000 && t.sreg .ss == 0) = true ∧
    ends ((machine 0x0100 [0x8C, 0xD3]).setSReg .ss 0x3000) (fun t => t.reg .bx == 0x3000) = true := by decide +kernel
-- By hand from 41_data_transfer.md R253, R256
theorem test_push_and_pop_segment_registers :
    ends (((machine 0x0100 [0x1E]).setSReg .ds 0x2000).setReg .sp 0x0200) (fun t => t.peek 0x1FF == 0x20 && t.reg .sp == 0x01FE) = true ∧
    ends (((machine 0x0100 [0x07]).holding 0x00200 [0x34, 0x12]).setReg .sp 0x0200)
      (fun t => t.sreg .es == 0x1234 && t.reg .sp == 0x0202) = true := by decide +kernel
-- By hand from 41_data_transfer.md R257: the address is that of SP before the pop
theorem test_pop_memory :
    ends ((((machine 0x0100 [0x8F, 0x07]).holding 0x00200 [0x34, 0x12]).setReg .sp 0x0200).setReg .bx 0x0300)
      (fun t => t.peek 0x300 == 0x34 && t.peek 0x301 == 0x12 && t.reg .sp == 0x0202) = true := by decide +kernel
-- 95_test_vectors.md V2.3
theorem test_popf_masks :
    ends (((machine 0x0100 [0x9D]).holding 0x00200 [0xFF, 0xFF]).setReg .sp 0x0200) (fun t => t.flags == 0xFFD7) = true ∧
    ends (((machine 0x0100 [0x9C]).setFlags16 0xFFFF).setReg .sp 0x0200) (fun t => t.peek 0x1FE == 0xD7 && t.peek 0x1FF == 0xFF) = true := by
  decide +kernel
-- By hand from 41_data_transfer.md R261, R262
theorem test_xchg_ax_and_nop :
    ends (((machine 0x0100 [0x93]).setReg .ax 1).setReg .bx 2) (fun t => t.reg .ax == 2 && t.reg .bx == 1) = true ∧
    ends ((machine 0x0100 [0x90]).setReg .ax 1) (fun t => t.reg .ax == 1 && t.ip == 0x0101) = true := by decide +kernel
-- 95_test_vectors.md V6.13, V6.14, with the host's answer 0x1234
theorem test_ports :
    ends (((machine 0x0100 [0xED]).answering 1 0x1234).setReg .dx 0x0060)
      (fun t => t.reg .ax == 0x1234 && t.calls.head? == some (.portRead16 0x0060)) = true ∧
    ends ((machine 0x0100 [0xE4, 0xFF]).answering 2 0x1234)
      (fun t => t.reg .ax == 0x0034 && t.calls.head? == some (.portRead8 0x00FF)) = true ∧
    ends (((machine 0x0100 [0xEF]).setReg .dx 0x0060).setReg .ax 0xABCD)
      (fun t => t.calls.head? == some (.portWrite16 0x0060 0xABCD)) = true := by decide +kernel
-- 95_test_vectors.md S5, V7.16, V7.18, V7.25, V7.29
theorem test_byte_products_and_quotients :
    ends (((machine 0x0100 [0xF6, 0xF3]).setReg .ax 0x00FF).setReg .bx 1) (fun t => t.reg .ax == 0x00FF) = true ∧
    ends (((machine 0x0100 [0xF6, 0xE3]).setReg .ax 0x00FF).setReg .bx 0x00FF) (fun t => t.reg .ax == 0xFE01) = true ∧
    ends (((machine 0x0100 [0xF6, 0xEB]).setReg .ax 0x0040).setReg .bx 2) (fun t => t.reg .ax == 0x0080) = true ∧
    ends (((machine 0x0100 [0xF6, 0xFB]).setReg .ax 7).setReg .bx 0x00FE) (fun t => t.reg .ax == 0x01FD) = true ∧
    ends (((machine 0x0100 [0xF3, 0xF6, 0xF3]).setReg .ax 7).setReg .bx 2) (fun t => t.reg .ax == 0x0103) = true := by decide +kernel
-- 95_test_vectors.md V8.6, V8.10
theorem test_decimal_adjust :
    ends ((machine 0x0100 [0x27]).setReg .ax 0x009A) (fun t => t.reg .ax == 0) = true ∧
    ends ((machine 0x0100 [0x2F]).setFlag .CF true) (fun t => t.reg .ax == 0x00A0) = true := by decide +kernel
-- 95_test_vectors.md V9.1, V9.2, V9.3; OR by hand from 44_logic_shift.md R392
theorem test_logic_results :
    ends ((machine 0x0100 [0x24, 0xF0]).setReg .ax 0x120F) (fun t => t.reg .ax == 0x1200) = true ∧
    ends ((machine 0x0100 [0xA9, 0x00, 0x80]).setReg .ax 0x8000) (fun t => t.reg .ax == 0x8000) = true ∧
    ends ((machine 0x0100 [0x34, 0xFF]).setReg .ax 0x0055) (fun t => t.reg .ax == 0x00AA) = true ∧
    ends ((machine 0x0100 [0x0D, 0xF0, 0x00]).setReg .ax 0x8001) (fun t => t.reg .ax == 0x80F1) = true := by decide +kernel
-- 95_test_vectors.md V9.5, V9.6, V9.10, V9.12, V9.13: result, CF and OF
theorem test_shift_steps :
    outcome .shl 8 0x81 = (0x00, true, true) ∧ outcome .shl 9 0x81 = (0x00, false, false) ∧ outcome .sar 8 0x80 = (0xFF, true, false) ∧
    outcome .shr 1 0x80 = (0x40, false, true) ∧ outcome .shl 1 0xC0 = (0x80, true, false) := by decide +kernel
-- 95_test_vectors.md V10.9; STOSW, LODSW and CMPSW by hand from 45_string.md R441, R443, R444
theorem test_string_bodies :
    ends ((((machine 0x0100 [0xF3, 0xAE]).setReg .cx 1).setReg .di 0x0300))
      (fun t => t.reg .cx == 0 && t.flag .ZF && t.reg .di == 0x0301) = true ∧
    ends (((machine 0x0100 [0xAB]).setReg .ax 0x1234).setReg .di 0x0300)
      (fun t => t.peek 0x300 == 0x34 && t.peek 0x301 == 0x12 && t.reg .di == 0x0302) = true ∧
    ends (((machine 0x0100 [0xAD]).holding 0x00300 [0x34, 0x12]).setReg .si 0x0300)
      (fun t => t.reg .ax == 0x1234 && t.reg .si == 0x0302) = true ∧
    ends ((((machine 0x0100 [0xA7]).holding 0x00300 [0x02, 0x00, 0x03, 0x00]).setReg .si 0x0300).setReg .di 0x0302)
      (fun t => t.flag .CF && !t.flag .ZF && t.reg .si == 0x0302 && t.reg .di == 0x0304) = true := by decide +kernel
-- By hand from 46_control.md R490, R492, R493
theorem test_jumps :
    ends (machine 0x0100 [0xEB, 0xFE]) (fun t => t.ip == 0x0100) = true ∧
    ends (machine 0x0100 [0xEA, 0x00, 0x02, 0x00, 0x30]) (fun t => t.ip == 0x0200 && t.sreg .cs == 0x3000) = true ∧
    ends ((machine 0x0100 [0xFF, 0xE3]).setReg .bx 0x0400) (fun t => t.ip == 0x0400 && t.sreg .cs == 0) = true := by decide +kernel
-- 95_test_vectors.md V12.8
theorem test_flag_instructions :
    ends ((machine 0x0100 [0xF5]).setFlags16 0xF003) (fun t => t.flags == 0xF002) = true ∧
    ends ((machine 0x0100 [0xF9]).setFlags16 0xF002) (fun t => t.flags == 0xF003) = true ∧
    ends ((machine 0x0100 [0xF8]).setFlags16 0xF003) (fun t => t.flags == 0xF002) = true ∧
    ends ((machine 0x0100 [0xFD]).setFlags16 0xF002) (fun t => t.flags == 0xF402) = true ∧
    ends ((machine 0x0100 [0xFC]).setFlags16 0xF402) (fun t => t.flags == 0xF002) = true ∧
    ends ((machine 0x0100 [0xFB]).setFlags16 0xF002) (fun t => t.flags == 0xF202) = true ∧
    ends ((machine 0x0100 [0xFA]).setFlags16 0xF202) (fun t => t.flags == 0xF002) = true := by decide +kernel
-- By hand from 46_control.md R472-R479: taken, then not taken
theorem test_jumps_on_one_flag :
    (jumped 0x70 [.OF], jumped 0x70 []) = (true, false) ∧ (jumped 0x71 [], jumped 0x71 [.OF]) = (true, false) ∧
    (jumped 0x72 [.CF], jumped 0x72 []) = (true, false) ∧ (jumped 0x73 [], jumped 0x73 [.CF]) = (true, false) ∧
    (jumped 0x74 [.ZF], jumped 0x74 []) = (true, false) ∧ (jumped 0x75 [], jumped 0x75 [.ZF]) = (true, false) ∧
    (jumped 0x78 [.SF], jumped 0x78 []) = (true, false) ∧ (jumped 0x79 [], jumped 0x79 [.SF]) = (true, false) ∧
    (jumped 0x7A [.PF], jumped 0x7A []) = (true, false) ∧ (jumped 0x7B [], jumped 0x7B [.PF]) = (true, false) := by decide +kernel
-- By hand from 46_control.md R478, R479, R484-R487
theorem test_jumps_on_an_order :
    (jumped 0x76 [.ZF], jumped 0x76 [.CF], jumped 0x76 []) = (true, true, false) ∧
    (jumped 0x77 [], jumped 0x77 [.CF], jumped 0x77 [.ZF]) = (true, false, false) ∧
    (jumped 0x7C [.SF], jumped 0x7C [.OF], jumped 0x7C [.SF, .OF]) = (true, true, false) ∧
    (jumped 0x7D [.SF, .OF], jumped 0x7D [], jumped 0x7D [.OF]) = (true, true, false) ∧
    (jumped 0x7E [.ZF], jumped 0x7E [.SF], jumped 0x7E []) = (true, true, false) ∧
    (jumped 0x7F [], jumped 0x7F [.ZF], jumped 0x7F [.OF]) = (true, false, false) := by decide +kernel
-- 95_test_vectors.md V13.1: the first step after reset
theorem test_first_step_after_reset :
    ends (State.reset.withFetchWord 40 0x00000100EA) (fun t => t.sreg .cs == 0 && t.ip == 0x0100 && t.instructionCount == 1) = true := by
  decide +kernel
-- 95_test_vectors.md V3.5, V3.7: the report comes, and the access still happens
theorem test_missing_permission_is_reported :
    ends ((((machine 0x0100 [0x26, 0x88, 0x07]).setSReg .es 0x0100).setReg .bx 0x1000 |>.setReg .ax 0x77).setPermAt 0x02000 0x03)
      (fun t => t.peek 0x2000 == 0x77 && t.calls.head? == some (.invalidMemoryAccess 0x02000 0x04)) = true ∧
    ends ((machine 0x0100 [0x90]).setPermAt 0x00100 0x06)
      (fun t => t.ip == 0x0101 && t.calls == [.fetched8 0x90 0, .invalidMemoryAccess 0x00100 0x01]) = true := by decide +kernel
-- 95_test_vectors.md V12.13: the host serves INT 0x21 itself and returns with iret
theorem test_host_serves_interrupt :
    ends (((machine 0x0100 [0xCD, 0x21]).serving 2 [.setReg .ax 0x1234, .iret]).setReg .sp 0x1000)
      (fun t => t.ip == 0x0102 && t.reg .ax == 0x1234 && t.reg .sp == 0x1000 && t.sreg .cs == 0) = true := by decide +kernel
-- 40_pipeline.md R231: a host that does not return ends the run, with the state at that point as the final one
theorem test_host_ends_the_run :
    stops ((machine 0x0100 [0xD6]).leaving 1) (.invalidOpcode [0xD6]) (fun t => t.ip == 0x0101 && t.host == []) = true := by
  decide +kernel
-- 42_arithmetic.md R322, R323: IDIV reads AX before E, DIV after it; the host sets AX to 100 at the report of E's read
theorem test_dividend_is_read_where_the_rule_reads_it :
    ends (((((machine 0x0100 [0xF6, 0x3F]).setReg .bx 0x0400).poke 0x0400 7).setPermAt 0x0400 0x05).setReg .ax 22
      |>.serving 2 [.setReg .ax 100]) (fun t => t.reg8 .al == 3 && t.reg8 .ah == 1) = true ∧
    ends (((((machine 0x0100 [0xF6, 0x37]).setReg .bx 0x0400).poke 0x0400 7).setPermAt 0x0400 0x05).setReg .ax 22
      |>.serving 2 [.setReg .ax 100]) (fun t => t.reg8 .al == 14 && t.reg8 .ah == 2) = true := by decide +kernel
-- 47_system.md R546, 30_encoding.md R145: the decode consumes an override before ESC, mod = 3 too
theorem test_esc_consumes_override :
    ends (machine 0x0100 [0x26, 0xD9, 0xC0]) (fun t => t.ip == 0x0103 && t.segOverride == none) = true ∧
    ends (machine 0x0100 [0x26, 0xD9, 0x07]) (fun t => t.ip == 0x0103 && t.segOverride == none) = true := by decide +kernel
-- 60_exceptions.md R586, R609: a report met in the host's own pop16 is a call of its own, in which the host may act, or stop
theorem test_host_pop_reports :
    ends (((machine 0x0100 [0xD6]).setPermAt 0x0000 0x05).serving 1 [.pop16] |>.thenServing [.setReg .cx 5]) (fun t =>
      t.reg .cx == 5 && t.reg .sp == 2 && t.host == [] &&
        t.calls == [.invalidMemoryAccess 0x0000 0x02, .invalidOpcode [0xD6], .fetched8 0xD6 0]) = true ∧
    stops (((machine 0x0100 [0xD6]).setPermAt 0x0001 0x05).serving 1 [.pop16, .setReg .dx 1] |>.thenLeaving)
      (.invalidMemoryAccess 0x0001 0x02) (fun t => t.reg .sp == 0 && t.reg .dx == 0) = true := by decide +kernel
-- 60_exceptions.md R609, D36: the default host may do anything at interrupt, and nothing at the other calls past its script
theorem test_default_host_at_interrupt :
    State.reset.replyTo (.interrupt 0) = freeReply 0 ∧ State.reset.heard (.interrupt 0) = (State.reset.told (.interrupt 0)).drawn ∧
    State.reset.replyTo .halt = .passive ∧ State.reset.heard .halt = State.reset.told .halt := ⟨rfl, rfl, rfl, rfl⟩
-- 60_exceptions.md R582: the first step after reset where it raises an interrupt and the host returns from it: INT3, INT, AAM 0, DIV, IDIV
theorem test_first_step_raises :
    ([(8, 0xCC), (8, 0xCD), (8, 0xD4), (16, 0xF630), (16, 0xF638), (16, 0xF730), (16, 0xF738)] : List (Nat × Nat)).all (fun p =>
      ends ({ State.reset with atInterrupt := some .passive }.withFetchWord p.1 p.2) fun t =>
        t.reg .sp == 0xFFFA && t.instructionCount == 1) = true := by decide +kernel
-- 40_pipeline.md R230, R231: execute() ends at HLT, whose state is final; execute(1) after one step
theorem test_execute_ends :
    (∃ o, executeEnds none (machine 0x0100 [0x90, 0xF4]) o ∧ (finalState o).map (·.ip) = some 0x0102) ∧
    (∃ o, executeEnds (some 1) (machine 0x0100 [0x90, 0xF4]) o ∧ (finalState o).map (·.ip) = some 0x0101) :=
  ⟨⟨_, ⟨5, rfl, by decide +kernel⟩, by decide +kernel⟩, ⟨_, ⟨rfl, by decide +kernel⟩, by decide +kernel⟩⟩
-- 40_pipeline.md R205, R231: a step that goes on for ever is no end of a run: none of (a), (b) and (c) holds
theorem test_endless_step_ends_no_run (m : Option Nat) (s : State) : ¬ executeEnds m s (.fault .endlessPrefixes) := by
  cases m with
  | none => rintro ⟨_, _, h⟩; cases h
  | some n => rintro ⟨_, h⟩; cases h

/-! ### The hypotheses of the statements can be met -/

/-- A state of the small machine with AX, BX, CX and DX as given. -/
def withRegs (ax bx cx dx : Word) : State :=
  ((((machine 0x0100 [0x90]).setReg .ax ax).setReg .bx bx).setReg .cx cx).setReg .dx dx

theorem quiet_of_no_host {s : State} (h : s.host = []) : Quiet s := by simp [Quiet, h]

theorem quiet_machine : Quiet (machine 0x0100 [0x90]) := quiet_of_no_host rfl

theorem quietAtInterrupt_of_passive {s : State} (h : s.atInterrupt = some .passive) : QuietAtInterrupt s := ⟨.passive, h, rfl, rfl⟩

/-- Whether an outcome is a next state. -/
def goesOnNext (o : Out) : Bool :=
  match o with
  | .next _ => true
  | _ => false

theorem exists_next {o : Out} (h : goesOnNext o = true) : ∃ t, o = .next t := by
  cases o with
  | next t => exact ⟨t, rfl⟩
  | fault r => cases h
  | refused r => cases h

theorem witness_EncodedInstructionDecodesBack :
    (Instr.addEbGb (.mem (.disp8 .bp 0x80)) .bh).wf = true ∧ (Instr.invFE 2 (.reg .bh)).wf = true := ⟨rfl, rfl⟩

theorem witness_DecodedBytesEncodeBack : decode [0x90, 0x01] = .ok (.nop, [0x01]) := rfl

theorem witness_EveryByteSequenceDecodes : 6 ≤ ([0xC7, 0x86, 0x00, 0x01, 0x34, 0x12] : List Byte).length := by decide

theorem witness_StepRunsDecodedInstruction :
    let s := machine 0x0100 [0x01, 0xD8]
    s.runState = .idle ∧ Quiet s ∧ isPrefix (.addEvGv (.reg .ax) .bx) = false ∧
      decode (s.codeBytes 6 s.ip) = .ok (.addEvGv (.reg .ax) .bx, [0, 0, 0, 0]) := ⟨rfl, quiet_of_no_host rfl, rfl, rfl⟩

theorem witness_PrefixChainIsOneStep :
    let s := machine 0x0100 [0x2E, 0xF3, 0xA4]
    let ps : List Instr := [.segCs, .rep]
    s.runState = .idle ∧ Quiet s ∧ Instr.movsb.wf = true ∧ isPrefix .movsb = false ∧ (∀ p ∈ ps, isPrefix p = true) ∧
      ps.length ≤ 0x10000 ∧ s.codeBytes (chainBytes ps .movsb).length s.ip = chainBytes ps .movsb :=
  ⟨rfl, quiet_of_no_host rfl, rfl, rfl, by decide, by decide, rfl⟩

theorem witness_StepNeedsIdle :
    ((machine 0x0100 [0x90]).setRunState .halted).runState = .halted ∧
    ((machine 0x0100 [0x90]).setRunState .executing).runState ≠ .idle ∧
    ((machine 0x0100 [0x90]).setRunState .executing).runState ≠ .halted ∧ ∃ t, step (machine 0x0100 [0x90]) = .next t :=
  ⟨rfl, by decide, by decide, exists_next (by decide +kernel)⟩

theorem witness_StepEndsIdleAndCountsOrHalted :
    (∃ t, step (machine 0x0100 [0x90]) = .next t) ∧ ∃ t, step (machine 0x0100 [0xF4]) = .next t :=
  ⟨exists_next (by decide +kernel), exists_next (by decide +kernel)⟩

theorem witness_SingleStepTrap :
    let s := ((machine 0x0100 [0x90]).setRunState .executing).stepping
    Quiet s ∧ QuietAtInterrupt s ∧ (s.setRunState .halted).runState = .halted ∧ s.runState ≠ .halted ∧ s.singleStep = true ∧
      s.raised = false ∧
      (∀ e, Instr.nop ≠ .movEsEw e ∧ Instr.nop ≠ .movSsEw e ∧ Instr.nop ≠ .movDsEw e) ∧
      Instr.nop ≠ .popEs ∧ Instr.nop ≠ .popSs ∧ Instr.nop ≠ .popDs ∧
      s.markRaised.raised = true ∧ (machine 0x0100 [0x90]).singleStep = false :=
  ⟨quiet_of_no_host rfl, quietAtInterrupt_of_passive rfl, rfl, by decide, rfl, rfl, by simp, by simp, by simp, by simp, rfl, rfl⟩

theorem witness_InstructionsStopOnlyAtTheHost :
    exec .inv0F ((machine 0x0100 [0x0F]).leaving 0) =
      .fault (.hostStopped (.invalidOpcode []) (((machine 0x0100 [0x0F]).leaving 0).told (.invalidOpcode []))) ∧
    (∀ r ∈ ((machine 0x0100 [0x0F]).serving 1 [.setReg .cx 1]).host, r.returns = true) ∧
    (machine 0x0100 [0x0F]).atInterrupt = some .passive ∧ HostReply.passive.returns = true ∧
    Quiet (machine 0x0100 [0x90]) ∧ raises .int3 (machine 0x0100 [0x90]) = true ∧ QuietAtInterrupt (machine 0x0100 [0x90]) :=
  ⟨rfl, by simp [State.serving], rfl, rfl, quiet_machine, rfl, quietAtInterrupt_of_passive rfl⟩

theorem exists_stop {o : Out} (h : (match o with | .fault (.hostStopped _ _) => true | _ => false) = true) :
    ∃ c t, o = .fault (.hostStopped c t) := by
  cases o with
  | next t => cases h
  | fault f =>
    cases f with
    | hostStopped c t => exact ⟨c, t, rfl⟩
    | _ => cases h
  | refused r => cases h

theorem witness_StepKeepsInv :
    Inv (machine 0x0100 [0x90]) ∧ (∃ t, step (machine 0x0100 [0x90]) = .next t) ∧
    Inv ((machine 0x0100 [0xD6]).leaving 1) ∧ ∃ c t, step ((machine 0x0100 [0xD6]).leaving 1) = .fault (.hostStopped c t) :=
  ⟨⟨rfl, rfl, rfl, fun _ h => (nomatch h), Or.inl rfl⟩, exists_next (by decide +kernel),
    ⟨rfl, rfl, rfl, fun _ h => (nomatch h), Or.inl rfl⟩, exists_stop (by decide +kernel)⟩

theorem witness_MemoryReadsLastWrite : Memory.wf (machine 0x0100 [0x90]).mem = true ∧ Quiet (machine 0x0100 [0x90]) :=
  ⟨rfl, quiet_machine⟩

theorem witness_MissingPermissionIsReported :
    let s := ((machine 0x0100 [0x90]).setPermAt 0x0FFFF 0x05).setPermAt 0x00000 0x05
    Quiet s ∧ s.permAt (lin 0 0xFFFF) &&& 0x02 = 0 ∧ s.permAt (lin 0 (0xFFFF + 1)) &&& 0x02 = 0 :=
  ⟨quiet_of_no_host rfl, rfl, rfl⟩

theorem witness_HostCallStopsOrActs :
    ((machine 0x0100 [0x90]).leaving 0).host = [{ returns := false, acts := [], answer := none }] ∧
    (machine 0x0100 [0x90]).host = [] ∧ HostCall.halt.isInterrupt = false ∧ (HostCall.interrupt 0).isInterrupt = true ∧
    (machine 0x0100 [0x90]).atInterrupt = some .passive ∧ State.reset.host = [] ∧ State.reset.atInterrupt = none ∧
    (((machine 0x0100 [0x90]).answering 0 0x1234).replyTo (.portRead16 0)).answer = some 0x1234 ∧
    ((machine 0x0100 [0x90]).replyTo (.portRead16 0)).answer = none := ⟨rfl, rfl, rfl, rfl, rfl, rfl, rfl, rfl, rfl⟩

theorem witness_FlagsRegisterWrites : maskFlags (machine 0x0100 [0x90]).flags = (machine 0x0100 [0x90]).flags := rfl

theorem witness_widths : ((8 : Nat) = 8 ∨ (8 : Nat) = 16) ∧ ((16 : Nat) = 8 ∨ (16 : Nat) = 16) := ⟨.inl rfl, .inr rfl⟩

/-- The one hypothesis of AddCompletes, SubtractCompletes, LogicCompletes, UnaryCompletes, MultiplyCompletes, MovesComplete, PopsComplete,
ExchangesAndAddressLoadsComplete, PortsComplete, JumpsComplete, CallsComplete, ReturnsComplete, IretCompletes and
ProcessorControlCompletes. -/
theorem witness_quiet_host : Quiet (machine 0x0100 [0x90]) ∧ Quiet ((machine 0x0100 [0xED]).answering 2 0x1234) :=
  ⟨quiet_machine, by simp [Quiet, HostReply.Quiet, State.answering]⟩

theorem witness_UnsignedDivideCompletes :
    (let s := withRegs 0x0FFF 0x0010 0 0
     Quiet s ∧ ((Rm8.reg .bl).value s).toNat ≠ 0 ∧ (s.reg .ax).toNat / ((Rm8.reg .bl).value s).toNat = 0xFF) ∧
    (let s := withRegs 0xFFFF 0x0010 0 0x000F
     Quiet s ∧ ((Rm16.reg .bx).value s).toNat ≠ 0 ∧
       ((s.reg .dx).toNat * 0x10000 + (s.reg .ax).toNat) / ((Rm16.reg .bx).value s).toNat = 0xFFFF) :=
  ⟨⟨quiet_of_no_host rfl, by decide +kernel, by decide +kernel⟩, ⟨quiet_of_no_host rfl, by decide +kernel, by decide +kernel⟩⟩

theorem witness_SignedDivideCompletes :
    (let s := withRegs 0xFF81 0x0001 0 0
     Quiet s ∧ ((Rm8.reg .bl).value s).toInt ≠ 0 ∧ (s.reg .ax).toInt.tdiv ((Rm8.reg .bl).value s).toInt = -127) ∧
    (let s := withRegs 0x007F 0x0001 0 0
     ((Rm8.reg .bl).value s).toInt ≠ 0 ∧ (s.reg .ax).toInt.tdiv ((Rm8.reg .bl).value s).toInt = 127) ∧
    (let s := withRegs 0x8001 0x0001 0 0xFFFF
     Quiet s ∧ ((Rm16.reg .bx).value s).toInt ≠ 0 ∧ (dxAx s).toInt.tdiv ((Rm16.reg .bx).value s).toInt = -32767) ∧
    (let s := withRegs 0x7FFF 0x0001 0 0
     ((Rm16.reg .bx).value s).toInt ≠ 0 ∧ (dxAx s).toInt.tdiv ((Rm16.reg .bx).value s).toInt = 32767) ∧
    (withRegs 0 0 0 0).rep = false ∧ { withRegs 0 0 0 0 with rep := true, lastPrefixRep := true }.lastPrefixRep = true ∧
    { withRegs 0 0 0 0 with rep := true }.lastPrefixRep = false :=
  ⟨⟨quiet_of_no_host rfl, by decide +kernel, by decide +kernel⟩, ⟨by decide +kernel, by decide +kernel⟩,
    ⟨quiet_of_no_host rfl, by decide +kernel, by decide +kernel⟩, ⟨by decide +kernel, by decide +kernel⟩, rfl, rfl, rfl⟩

theorem witness_DivideFaultTraps :
    Quiet (withRegs 0x1000 0x0010 0 0) ∧ QuietAtInterrupt (withRegs 0x1000 0x0010 0 0) ∧
    (let s := withRegs 0x1000 0x0010 0 0; 0xFF < (s.reg .ax).toNat / ((Rm8.reg .bl).value s).toNat) ∧
    (let s := withRegs 0 0 0 0; ((Rm8.reg .bl).value s).toNat = 0 ∧ ((Rm16.reg .bx).value s).toInt = 0) ∧
    (let s := withRegs 0 0x0010 0 0x0010; 0xFFFF < (dxAx s).toNat / ((Rm16.reg .bx).value s).toNat) ∧
    (let s := withRegs 0xFF80 0x0001 0 0; (s.reg .ax).toInt.tdiv ((Rm8.reg .bl).value s).toInt < -127) ∧
    (let s := withRegs 0x0080 0x0001 0 0; 127 < (s.reg .ax).toInt.tdiv ((Rm8.reg .bl).value s).toInt) ∧
    (let s := withRegs 0x8000 0x0001 0 0xFFFF; (dxAx s).toInt.tdiv ((Rm16.reg .bx).value s).toInt < -32767) ∧
    (let s := withRegs 0x8000 0x0001 0 0; 32767 < (dxAx s).toInt.tdiv ((Rm16.reg .bx).value s).toInt) :=
  ⟨quiet_of_no_host rfl, quietAtInterrupt_of_passive rfl, by decide +kernel, ⟨by decide +kernel, by decide +kernel⟩,
    by decide +kernel, by decide +kernel,
    by decide +kernel, by decide +kernel, by decide +kernel⟩

theorem witness_AsciiAdjustCompletes :
    9 < ((withRegs 0x000A 0 0 0).reg8 .al &&& 0x0F).toNat ∧
    ((withRegs 0x0009 0 0 0).setFlag .AF true).flag .AF = true ∧
    ¬(9 < ((withRegs 0x0009 0 0 0).reg8 .al &&& 0x0F).toNat ∨ (withRegs 0x0009 0 0 0).flag .AF = true) := by decide +kernel

theorem witness_DecimalAdjustCompletes :
    (let s := (withRegs 0x009A 0 0 0).setFlag .AF true
     s.flag .AF = true ∧ s.flag .CF = false ∧ 0x9A ≤ (s.reg8 .al).toNat ∧ (s.reg8 .al).toNat ≤ 0x9F) ∧
    (let s := (withRegs 0x009F 0 0 0).setFlag .AF true
     s.flag .AF = true ∧ s.flag .CF = false ∧ 0x9A ≤ (s.reg8 .al).toNat ∧ (s.reg8 .al).toNat ≤ 0x9F) ∧
    (let s := (withRegs 0x0099 0 0 0).setFlag .AF true
     ¬(s.flag .AF = true ∧ s.flag .CF = false ∧ 0x9A ≤ (s.reg8 .al).toNat ∧ (s.reg8 .al).toNat ≤ 0x9F)) := by decide +kernel

theorem witness_BaseAdjustCompletes : (1 : Byte) ≠ 0 := by decide

theorem witness_ShiftsComplete :
    Quiet (machine 0x0100 [0x90]) ∧ (1 : Nat) ≠ 0 ∧ ShiftOp.rcr ∈ [ShiftOp.rol, .ror, .rcl, .rcr] ∧ ShiftOp.sar ∈ [ShiftOp.shl, .shr, .sar] :=
  ⟨quiet_machine, by decide, by decide, by decide⟩

theorem witness_EffectiveAddress :
    (machine 0x0100 [0x90]).ea = none ∧ { machine 0x0100 [0x90] with ea := some (0x2000, 0x0010) }.ea = some (0x2000, 0x0010) ∧
    { machine 0x0100 [0x90] with segOverride := some .es }.segOverride = some .es ∧ (machine 0x0100 [0x90]).segOverride = none :=
  ⟨rfl, rfl, rfl, rfl⟩

theorem witness_PushesComplete :
    Quiet (machine 0x0100 [0x90]) ∧ Reg16.ax ≠ .sp ∧ Rm16.mem (.direct 0) ≠ .reg .sp := ⟨quiet_machine, by decide, by decide⟩

theorem witness_PushAndPopAreInverse : Quiet (withRegs 0 0 0 0) ∧ Memory.wf (withRegs 0 0 0 0).mem = true :=
  ⟨quiet_of_no_host rfl, rfl⟩

theorem witness_StringsRunOnce : Quiet (withRegs 0 0 0 0) ∧ (withRegs 0 0 0 0).rep = false := ⟨quiet_of_no_host rfl, rfl⟩

theorem witness_RepeatedTransfersRunCxRounds :
    Quiet { withRegs 0 0 0xFFFF 0 with rep := true } ∧ { withRegs 0 0 0xFFFF 0 with rep := true }.rep = true :=
  ⟨quiet_of_no_host rfl, rfl⟩

theorem witness_RepeatedComparisonsStopOnZf :
    Quiet { withRegs 0 0 3 0 with rep := true } ∧ { withRegs 0 0 3 0 with rep := true }.rep = true ∧
    ((Instr.cmpsb, compared8) = (.cmpsb, compared8)) := ⟨quiet_of_no_host rfl, rfl, rfl⟩

theorem witness_RepStosbFillsMemory :
    Quiet { withRegs 0 0 3 0 with rep := true } ∧ Memory.wf (withRegs 0 0 3 0).mem = true ∧
    { withRegs 0 0 3 0 with rep := true }.rep = true := ⟨quiet_of_no_host rfl, rfl, rfl⟩

theorem witness_SoftwareInterruptsDispatch :
    Quiet ((machine 0x0100 [0xCE]).setFlag .OF true) ∧ ((machine 0x0100 [0xCE]).setFlag .OF true).flag .OF = true ∧
    Memory.wf ((machine 0x0100 [0xCE]).setFlag .OF true).mem = true ∧ QuietAtInterrupt ((machine 0x0100 [0xCE]).setFlag .OF true) ∧
    (machine 0x0100 [0xCE]).flag .OF = false :=
  ⟨quiet_of_no_host rfl, rfl, rfl, quietAtInterrupt_of_passive rfl, rfl⟩

theorem witness_IretUndoesInterrupt :
    let s := machine 0x0100 [0xCD, 0x21]
    Quiet s ∧ QuietAtInterrupt s ∧ Memory.wf s.mem = true ∧ maskFlags s.flags = s.flags ∧ ∃ t, exec (.intIb 0x21) s = .next t :=
  ⟨quiet_of_no_host rfl, quietAtInterrupt_of_passive rfl, rfl, rfl, exists_next (by decide +kernel)⟩

theorem witness_InvalidOpcodesReport :
    Quiet (machine 0x0100 [0x0F]) ∧ ((machine 0x0100 [0x0F]).leaving 0).host = [{ returns := false, acts := [], answer := none }] :=
  ⟨quiet_of_no_host rfl, rfl⟩

/-- The hypotheses of FrameOfRegisters, FrameOfFlags, FrameOfMemory and FrameOfControl, for an instruction that stores and one that
dispatches. -/
theorem witness_frames :
    Quiet (machine 0x0100 [0x90]) ∧ (∃ t, exec (.addEvGv (.mem (.base .bx)) .ax) (machine 0x0100 [0x90]) = .next t) ∧
    raises .int3 (machine 0x0100 [0x90]) = true ∧ QuietAtInterrupt (machine 0x0100 [0x90]) ∧
    ∃ t, exec .int3 (machine 0x0100 [0x90]) = .next t :=
  ⟨quiet_machine, exists_next (by decide +kernel), rfl, quietAtInterrupt_of_passive rfl, exists_next (by decide +kernel)⟩

end Sys2Proof.Tests
end

section
/-! SUPPORT. Every instruction under any host: `exec` keeps what `Kept` says, stops where a host does not return, or spends the bound of
a repeated string instruction (40_pipeline.md R231; log entry 11). -/

namespace Sys2Proof.Machine

/-! ### Plain updates -/

theorem kept_mulFlags (high : Bool) (s : State) : Kept s (mulFlags high s) :=
  (kept_setFlag s .CF high).trans ((kept_setFlag _ .OF high).trans (kept_freeFlags _ _))

theorem kept_setProduct8 (p : Word) (high : Bool) (s : State) : Kept s (setProduct8 p high s) :=
  (kept_setReg s .ax p).trans (kept_mulFlags high _)

theorem kept_setProduct16 (p : DWord) (high : Bool) (s : State) : Kept s (setProduct16 p high s) :=
  (kept_setReg s .dx _).trans ((kept_setReg _ .ax _).trans (kept_mulFlags high _))

theorem kept_setQuotient8 (q r : Byte) (s : State) : Kept s (setQuotient8 q r s) :=
  (kept_setReg8 s .al q).trans ((kept_setReg8 _ .ah r).trans (kept_mapFlags _ fun _ => maskFlags_clearStatus))

theorem kept_setQuotient16 (q r : Word) (s : State) : Kept s (setQuotient16 q r s) :=
  (kept_setReg s .ax q).trans ((kept_setReg _ .dx r).trans (kept_mapFlags _ fun _ => maskFlags_clearStatus))

theorem kept_afterNegate (s : State) : Kept s (afterNegate s) := by
  unfold afterNegate
  split
  · exact kept_drawn s
  · exact .refl s

theorem kept_incValue {w : Nat} (c : Bool) (v : BitVec w) (s : State) : Kept s (incValue c v s).2 :=
  (kept_mapFlags s fun _ => maskFlags_addFlags _ _ _).trans (kept_setFlag _ .CF c)

theorem kept_decValue {w : Nat} (c : Bool) (v : BitVec w) (s : State) : Kept s (decValue c v s).2 :=
  (kept_mapFlags s fun _ => maskFlags_subFlags _ _ _).trans (kept_setFlag _ .CF c)

theorem kept_negValue {w : Nat} (v : BitVec w) (s : State) : Kept s (negValue v s).2 :=
  kept_mapFlags s fun _ => maskFlags_subFlags _ _ _

theorem kept_putSZP {w : Nat} (r : BitVec w) (s : State) : Kept s (s.mapFlags (putSZP r)) :=
  kept_mapFlags s fun _ => maskFlags_putSZP r

theorem kept_shiftValue {w : Nat} (op : ShiftOp) (n : Nat) (v : BitVec w) (s : State) : Kept s (shiftValue op n v s).2 := by
  unfold shiftValue
  split
  · exact .refl s
  · have steps : Kept s { s with flags := (shiftSteps op n (v, s.flags)).2 } :=
      .of_flags (maskFlags_shiftSteps op n (v, s.flags)) rfl rfl rfl rfl rfl rfl
    dsimp only
    split
    · exact steps.trans ((kept_putSZP _ _).trans (kept_freeFlag _ _))
    · exact steps

theorem kept_advance (r : Reg16) (n : Word) (s : State) : Kept s (advance r n s) := kept_setReg s r _

theorem kept_release (n : Word) (s : State) : Kept s (release n s) := kept_setReg s .sp _

theorem kept_countDown (s : State) : Kept s (countDown s) := kept_setReg s .cx _

/-! ### The families -/

theorem runs_execMulEb (e : Rm8) (s : State) : Runs s (execMulEb e s) :=
  (runs_readRm8 e s).thenWith fun _ t => kept_setProduct8 _ _ t

theorem runs_execMulEv (e : Rm16) (s : State) : Runs s (execMulEv e s) :=
  (runs_readRm16 e s).thenWith fun _ t => kept_setProduct16 _ _ t

theorem runs_execImulEb (e : Rm8) (s : State) : Runs s (execImulEb e s) :=
  (runs_readRm8 e s).thenWith fun _ t => kept_setProduct8 _ _ t

theorem runs_execImulEv (e : Rm16) (s : State) : Runs s (execImulEv e s) :=
  (runs_readRm16 e s).thenWith fun _ t => kept_setProduct16 _ _ t

theorem runs_execDivEb (e : Rm8) (s : State) : Runs s (execDivEb e s) := by
  refine (runs_readRm8 e s).thenWith fun d t => ?_
  cases divideUnsigned (t.reg .ax).toNat d.toNat 0xFF with
  | none => exact runs_divideFault t
  | some qr => exact kept_setQuotient8 _ _ t

theorem runs_execDivEv (e : Rm16) (s : State) : Runs s (execDivEv e s) := by
  refine (runs_readRm16 e s).thenWith fun d t => ?_
  cases divideUnsigned (dxAx t).toNat d.toNat 0xFFFF with
  | none => exact runs_divideFault t
  | some qr => exact kept_setQuotient16 _ _ t

theorem runs_execIdivEb (e : Rm8) (s : State) : Runs s (execIdivEb e s) := by
  refine (runs_readRm8 e s).thenWith fun d t => ?_
  cases divideSigned (s.reg .ax).toInt d.toInt 127 with
  | none => exact runs_divideFault t
  | some qr => exact (kept_afterNegate t).trans (kept_setQuotient8 _ _ _)

theorem runs_execIdivEv (e : Rm16) (s : State) : Runs s (execIdivEv e s) := by
  refine (runs_readRm16 e s).thenWith fun d t => ?_
  cases divideSigned (dxAx s).toInt d.toInt 32767 with
  | none => exact runs_divideFault t
  | some qr => exact (kept_afterNegate t).trans (kept_setQuotient16 _ _ _)

theorem runs_asciiAdjust (al6 ah1 : Byte → Byte) (s : State) : Runs s (asciiAdjust al6 ah1 s) :=
  (kept_setReg8 s .ah _).trans ((kept_setFlag _ .AF _).trans ((kept_setFlag _ .CF _).trans
    ((kept_setReg8 _ .al _).trans (kept_freeFlags _ _))))

theorem runs_decimalAdjust (move : Byte → Byte → Byte) (s : State) : Runs s (decimalAdjust move s) := by
  have band : Kept s (if drawBand (s.reg8 .al) (s.flag .AF) (s.flag .CF) then s.drawn else s) := by
    split
    · exact kept_drawn s
    · exact .refl s
  exact band.trans ((kept_setReg8 _ .al _).trans ((kept_setFlag _ .AF _).trans ((kept_setFlag _ .CF _).trans
    ((kept_putSZP _ _).trans (kept_freeFlags _ _)))))

theorem runs_execAam (base : Byte) (s : State) : Runs s (execAam base s) := by
  unfold execAam
  split
  · exact runs_divideFault s
  · exact (kept_setReg8 s .ah _).trans ((kept_setReg8 _ .al _).trans ((kept_putSZP _ _).trans (kept_freeFlags _ _)))

theorem runs_execAad (base : Byte) (s : State) : Runs s (execAad base s) :=
  (kept_setReg8 s .al _).trans ((kept_setReg8 _ .ah _).trans ((kept_putSZP _ _).trans (kept_freeFlags _ _)))

theorem runs_jumpIf (cond : Bool) (rel : Byte) (s : State) : Runs s (jumpIf cond rel s) := by
  unfold jumpIf
  split
  · exact kept_setIp s _
  · exact Kept.refl s

theorem runs_callFar (off sg : Word) (s : State) : Runs s (callFar off sg s) :=
  (runs_push16 _ s).thenDo fun t => (runs_push16 _ t).thenDo fun u => (kept_setSReg u .cs sg).trans (kept_setIp _ off)

theorem runs_callNear (pushed : Word) (target : State → Word) (s : State) :
    Runs s (thenDo (push16 pushed s) fun t => .next (t.setIp (target t))) :=
  (runs_push16 _ s).thenDo fun t => kept_setIp t _

theorem runs_returnNear (n : Word) (s : State) : Runs s (returnNear n s) :=
  (runs_pop16 s).thenWith fun v t => (kept_setIp t v).trans (kept_release n _)

theorem runs_returnFar (n : Word) (s : State) : Runs s (returnFar n s) :=
  (runs_pop16 s).thenWith fun v t => Runs.of_kept (kept_setIp t v)
    ((runs_pop16 _).thenWith fun w u => (kept_setSReg u .cs w).trans (kept_release n _))

theorem runs_loadSReg (r : SReg) (e : Rm16) (s : State) : Runs s (loadSReg r e s) :=
  (runs_readRm16 e s).thenWith fun v t => kept_setSReg t r v

theorem runs_popSReg (r : SReg) (s : State) : Runs s (popSReg r s) :=
  (runs_pop16 s).thenWith fun v t => kept_setSReg t r v

theorem runs_loadFar (r : SReg) (g : Reg16) (m : MemOp) (s : State) : Runs s (loadFar r g m s) :=
  (runs_readFar m s).thenWith fun p t => (kept_setReg t g p.1).trans (kept_setSReg _ r p.2)

theorem runs_execPushEv (e : Rm16) (s : State) : Runs s (execPushEv e s) := by
  unfold execPushEv
  split
  · exact (runs_push16 _ _).of_kept (kept_drawn s)
  · exact (runs_readRm16 e s).thenWith fun v t => runs_push16 v t

theorem runs_execXchgEbGb (e : Rm8) (g : Reg8) (s : State) : Runs s (execXchgEbGb e g s) :=
  (runs_readRm8 e s).thenWith fun v t => (runs_writeLoc8 _ _ t).thenDo fun u => kept_setReg8 u g v

theorem runs_execXchgEvGv (e : Rm16) (g : Reg16) (s : State) : Runs s (execXchgEvGv e g s) :=
  (runs_readRm16 e s).thenWith fun v t => (runs_writeLoc16 _ _ t).thenDo fun u => kept_setReg u g v

theorem runs_in8 (port : Word) (s : State) : Runs s (in8 port s) :=
  (runs_portRead _ s).thenWith fun _ t => kept_setReg8 t .al _

theorem runs_in16 (port : Word) (s : State) : Runs s (in16 port s) :=
  (runs_portRead _ s).thenWith fun v t => kept_setReg t .ax v

theorem runs_execInto (s : State) : Runs s (execInto s) := by
  unfold execInto
  split
  · exact runs_interrupt 4 s
  · exact Kept.refl s

/-! ### The string instructions (45_string.md R432) -/

/-- As `Runs`, but the bound of a repeat loop may be spent (log entry 11). -/
def RunsOrSpent (s : State) (o : Out) : Prop := Runs s o ∨ o = .fault .repeatBound

theorem RunsOrSpent.of_kept {s t : State} {o : Out} (h : Kept s t) (k : RunsOrSpent t o) : RunsOrSpent s o :=
  k.imp_left (Runs.of_kept h)

theorem RunsOrSpent.thenDo {s : State} {o : Out} {f : State → Out} (h : Runs s o) (k : ∀ t, RunsOrSpent t (f t)) :
    RunsOrSpent s (Machine.thenDo o f) := by
  cases o with
  | next t => exact (k t).of_kept h
  | fault r => exact .inl h
  | refused r => exact .inl h

section
variable {body : State → Out} (hb : ∀ t, Runs t (body t))
include hb

theorem runs_repeatLoop (testsZf : Bool) (bound : Nat) (s : State) : RunsOrSpent s (repeatLoop body testsZf bound s) := by
  induction bound generalizing s with
  | zero =>
    unfold repeatLoop
    split
    · exact .inl (Kept.refl s)
    · exact .inr rfl
  | succ n ih =>
    unfold repeatLoop
    split
    · exact .inl (Kept.refl s)
    · refine RunsOrSpent.thenDo (hb s) fun t => RunsOrSpent.of_kept (kept_setReg t .cx (t.reg .cx - 1)) ?_
      dsimp only
      split
      · exact .inl (Kept.refl _)
      · exact ih _

theorem runs_stringOp (testsZf : Bool) (s : State) : RunsOrSpent s (stringOp body testsZf s) := by
  unfold stringOp
  split
  · exact runs_repeatLoop hb testsZf _ s
  · exact .inl (hb s)

end

theorem runs_movsBody8 (s : State) : Runs s (movsBody8 s) :=
  (runs_memRead8 _ _ s).thenWith fun _ t => (runs_memWrite8 _ _ _ t).thenDo fun u => (kept_advance .si 1 u).trans (kept_advance .di 1 _)

theorem runs_movsBody16 (s : State) : Runs s (movsBody16 s) :=
  (runs_memRead16 _ _ s).thenWith fun _ t => (runs_memWrite16 _ _ _ t).thenDo fun u => (kept_advance .si 2 u).trans (kept_advance .di 2 _)

theorem runs_cmpsBody8 (s : State) : Runs s (cmpsBody8 s) :=
  (runs_memRead8 _ _ s).thenWith fun _ t => (runs_memRead8 _ _ t).thenWith fun _ u =>
    (kept_mapFlags u fun _ => maskFlags_subFlags _ _ _).trans ((kept_advance .si 1 _).trans (kept_advance .di 1 _))

theorem runs_cmpsBody16 (s : State) : Runs s (cmpsBody16 s) :=
  (runs_memRead16 _ _ s).thenWith fun _ t => (runs_memRead16 _ _ t).thenWith fun _ u =>
    (kept_mapFlags u fun _ => maskFlags_subFlags _ _ _).trans ((kept_advance .si 2 _).trans (kept_advance .di 2 _))

theorem runs_scasBody8 (s : State) : Runs s (scasBody8 s) :=
  (runs_memRead8 _ _ s).thenWith fun _ t => (kept_mapFlags t fun _ => maskFlags_subFlags _ _ _).trans (kept_advance .di 1 _)

theorem runs_scasBody16 (s : State) : Runs s (scasBody16 s) :=
  (runs_memRead16 _ _ s).thenWith fun _ t => (kept_mapFlags t fun _ => maskFlags_subFlags _ _ _).trans (kept_advance .di 2 _)

theorem runs_lodsBody8 (s : State) : Runs s (lodsBody8 s) :=
  (runs_memRead8 _ _ s).thenWith fun v t => (kept_setReg8 t .al v).trans (kept_advance .si 1 _)

theorem runs_lodsBody16 (s : State) : Runs s (lodsBody16 s) :=
  (runs_memRead16 _ _ s).thenWith fun v t => (kept_setReg t .ax v).trans (kept_advance .si 2 _)

theorem runs_stosBody8 (s : State) : Runs s (stosBody8 s) :=
  (runs_memWrite8 _ _ _ s).thenDo fun t => kept_advance .di 1 t

theorem runs_stosBody16 (s : State) : Runs s (stosBody16 s) :=
  (runs_memWrite16 _ _ _ s).thenDo fun t => kept_advance .di 2 t

/-! ### Every instruction -/

/-- Whatever the host does, an instruction keeps what `Kept` says, stops where the host does not return, or spends the bound of its repeat
loop (60_exceptions.md R609; 40_pipeline.md R231; log entry 11). -/
theorem runs_exec (i : Instr) (s : State) : RunsOrSpent s (exec i s) := by
  cases i with dsimp only [exec]
  | addEbGb e | orEbGb e | adcEbGb e | sbbEbGb e | andEbGb e | subEbGb e | xorEbGb e | cmpEbGb e | testEbGb e
  | addEbIb e | orEbIb e | adcEbIb e | sbbEbIb e | andEbIb e | subEbIb e | xorEbIb e | cmpEbIb e | testEbIb e =>
    exact .inl (runs_aluRm8 _ e _ s)
  | addEvGv e | orEvGv e | adcEvGv e | sbbEvGv e | andEvGv e | subEvGv e | xorEvGv e | cmpEvGv e | testEvGv e
  | addEvIw e | orEvIw e | adcEvIw e | sbbEvIw e | andEvIw e | subEvIw e | xorEvIw e | cmpEvIw e | testEvIw e
  | addEvSib e | orEvSib e | adcEvSib e | sbbEvSib e | andEvSib e | subEvSib e | xorEvSib e | cmpEvSib e =>
    exact .inl (runs_aluRm16 _ e _ s)
  | addGbEb g e | orGbEb g e | adcGbEb g e | sbbGbEb g e | andGbEb g e | subGbEb g e | xorGbEb g e | cmpGbEb g e =>
    exact .inl (runs_aluReg8 _ g e s)
  | addGvEv g e | orGvEv g e | adcGvEv g e | sbbGvEv g e | andGvEv g e | subGvEv g e | xorGvEv g e | cmpGvEv g e =>
    exact .inl (runs_aluReg16 _ g e s)
  | addAlIb imm | orAlIb imm | adcAlIb imm | sbbAlIb imm | andAlIb imm | subAlIb imm | xorAlIb imm | cmpAlIb imm | testAlIb imm =>
    exact .inl (runs_aluAcc8 _ imm s)
  | addAxIw imm | orAxIw imm | adcAxIw imm | sbbAxIw imm | andAxIw imm | subAxIw imm | xorAxIw imm | cmpAxIw imm | testAxIw imm =>
    exact .inl (runs_aluAcc16 _ imm s)
  | incEb e => exact .inl (runs_modifyRm8 e (kept_incValue _) s)
  | incEv e => exact .inl (runs_modifyRm16 e (kept_incValue _) s)
  | incR16 r => exact .inl (runs_modifyRm16 (.reg r) (kept_incValue _) s)
  | decEb e => exact .inl (runs_modifyRm8 e (kept_decValue _) s)
  | decEv e => exact .inl (runs_modifyRm16 e (kept_decValue _) s)
  | decR16 r => exact .inl (runs_modifyRm16 (.reg r) (kept_decValue _) s)
  | negEb e => exact .inl (runs_modifyRm8 e kept_negValue s)
  | negEv e => exact .inl (runs_modifyRm16 e kept_negValue s)
  | notEb e => exact .inl (runs_modifyRm8 e (fun _ t => Kept.refl t) s)
  | notEv e => exact .inl (runs_modifyRm16 e (fun _ t => Kept.refl t) s)
  | rolEb1 e | rorEb1 e | rclEb1 e | rcrEb1 e | shlEb1 e | shrEb1 e | sarEb1 e
  | rolEbCl e | rorEbCl e | rclEbCl e | rcrEbCl e | shlEbCl e | shrEbCl e | sarEbCl e =>
    exact .inl (runs_modifyRm8 e (kept_shiftValue _ _) s)
  | rolEv1 e | rorEv1 e | rclEv1 e | rcrEv1 e | shlEv1 e | shrEv1 e | sarEv1 e
  | rolEvCl e | rorEvCl e | rclEvCl e | rcrEvCl e | shlEvCl e | shrEvCl e | sarEvCl e =>
    exact .inl (runs_modifyRm16 e (kept_shiftValue _ _) s)
  | mulEb e => exact .inl (runs_execMulEb e s)
  | mulEv e => exact .inl (runs_execMulEv e s)
  | imulEb e => exact .inl (runs_execImulEb e s)
  | imulEv e => exact .inl (runs_execImulEv e s)
  | divEb e => exact .inl (runs_execDivEb e s)
  | divEv e => exact .inl (runs_execDivEv e s)
  | idivEb e => exact .inl (runs_execIdivEb e s)
  | idivEv e => exact .inl (runs_execIdivEv e s)
  | aaa | aas => exact .inl (runs_asciiAdjust _ _ s)
  | daa | das => exact .inl (runs_decimalAdjust _ s)
  | aam base => exact .inl (runs_execAam base s)
  | aad base => exact .inl (runs_execAad base s)
  | jo | jno | jb | jnb | je | jne | jbe | ja | js | jns | jp | jnp | jl | jge | jle | jg | jcxz =>
    exact .inl (runs_jumpIf _ _ s)
  | loop | loope | loopne => exact .inl ((runs_jumpIf _ _ _).of_kept (kept_countDown s))
  | jmpRel8 | jmpRel16 => exact .inl (kept_setIp s _)
  | jmpAp off sg => exact .inl ((kept_setIp s off).trans (kept_setSReg _ .cs sg))
  | jmpEv e => exact .inl ((runs_readRm16 e s).thenWith fun v t => kept_setIp t v)
  | jmpMp m => exact .inl ((runs_readFar m s).thenWith fun p t => (kept_setIp t p.1).trans (kept_setSReg _ .cs p.2))
  | callRel16 rel => exact .inl (runs_callNear _ _ s)
  | callEv e => exact .inl ((runs_readRm16 e s).thenWith fun v t => runs_callNear _ (fun _ => v) t)
  | callAp off sg => exact .inl (runs_callFar off sg s)
  | callMp m => exact .inl ((runs_readFar m s).thenWith fun p t => runs_callFar p.1 p.2 t)
  | ret | retIw => exact .inl (runs_returnNear _ s)
  | retf | retfIw => exact .inl (runs_returnFar _ s)
  | movEbGb e | movEbIb e => exact .inl (runs_writeLoc8 (locate8 e s) _ s)
  | movEvGv e | movEvIw e | movEwSw e => exact .inl (runs_writeLoc16 (locate16 e s) _ s)
  | movGbEb g e => exact .inl ((runs_readRm8 e s).thenWith fun v t => kept_setReg8 t g v)
  | movGvEv g e => exact .inl ((runs_readRm16 e s).thenWith fun v t => kept_setReg t g v)
  | movR8Ib r => exact .inl (kept_setReg8 s r _)
  | movR16Iw r => exact .inl (kept_setReg s r _)
  | movAlOb | xlat => exact .inl ((runs_memRead8 _ _ s).thenWith fun v t => kept_setReg8 t .al v)
  | movAxOv => exact .inl ((runs_memRead16 _ _ s).thenWith fun v t => kept_setReg t .ax v)
  | movObAl => exact .inl (runs_memWrite8 _ _ _ s)
  | movOvAx => exact .inl (runs_memWrite16 _ _ _ s)
  | movEsEw e | movSsEw e | movDsEw e => exact .inl (runs_loadSReg _ e s)
  | pushR16 | pushEs | pushCs | pushSs | pushDs | pushf => exact .inl (runs_push16 _ s)
  | pushEv e => exact .inl (runs_execPushEv e s)
  | popR16 r => exact .inl ((runs_pop16 s).thenWith fun v t => kept_setReg t r v)
  | popEs | popSs | popDs => exact .inl (runs_popSReg _ s)
  | popEv e => exact .inl ((runs_pop16 s).thenWith fun v t => runs_writeLoc16 (locate16 e s) v t)
  | popf => exact .inl ((runs_pop16 s).thenWith fun v t => kept_setFlags16 t v)
  | sahf => exact .inl (kept_setFlags16 s _)
  | lahf => exact .inl (kept_setReg8 s .ah _)
  | xchgEbGb e g => exact .inl (runs_execXchgEbGb e g s)
  | xchgEvGv e g => exact .inl (runs_execXchgEvGv e g s)
  | xchgAxR16 r => exact .inl ((kept_setReg s .ax _).trans (kept_setReg _ r _))
  | leaGvM g => exact .inl (kept_setReg s g _)
  | ldsGvMp g m | lesGvMp g m => exact .inl (runs_loadFar _ g m s)
  | cbw => exact .inl (kept_setReg s .ax _)
  | cwd => exact .inl (kept_setReg s .dx _)
  | inAlIb | inAlDx => exact .inl (runs_in8 _ s)
  | inAxIb | inAxDx => exact .inl (runs_in16 _ s)
  | outIbAl | outIbAx | outDxAl | outDxAx => exact .inl (runs_callHost _ s)
  | inv60 | inv8C | inv8D | inv8Ecs | inv8E | inv8F | invC4 | invC5 | invC6 | invC7 | invD0r6 | invD1r6 | invD2r6 | invD3r6
  | invF6r1 | invF7r1 | invFE | invFFr3 | invFFr5 | invFFr7 | inv0F | inv82 | invC0 | invC1 | invC8 | invC9 | invD6 | invF1 =>
    exact .inl (runs_callHost _ s)
  | segEs | segCs | segSs | segDs | repne | rep | lock => exact .inl (.of_fields rfl rfl rfl rfl rfl rfl rfl)
  | movsb => exact runs_stringOp runs_movsBody8 _ s
  | movsw => exact runs_stringOp runs_movsBody16 _ s
  | cmpsb => exact runs_stringOp runs_cmpsBody8 _ s
  | cmpsw => exact runs_stringOp runs_cmpsBody16 _ s
  | scasb => exact runs_stringOp runs_scasBody8 _ s
  | scasw => exact runs_stringOp runs_scasBody16 _ s
  | lodsb => exact runs_stringOp runs_lodsBody8 _ s
  | lodsw => exact runs_stringOp runs_lodsBody16 _ s
  | stosb => exact runs_stringOp runs_stosBody8 _ s
  | stosw => exact runs_stringOp runs_stosBody16 _ s
  | intIb n => exact .inl (runs_interrupt n s)
  | int3 => exact .inl (runs_interrupt 3 s)
  | into => exact .inl (runs_execInto s)
  | iret => exact .inl (runs_returnFromInterrupt s)
  | hlt => exact .inl ((kept_haltCall s).trans (kept_setRunState _ .halted))
  | nop | wait | esc => exact .inl (Kept.refl s)
  | clc | stc | cmc => exact .inl (kept_setFlag s .CF _)
  | cld | std => exact .inl (kept_setFlag s .DF _)
  | cli | sti => exact .inl (kept_setFlag s .IF _)

end Sys2Proof.Machine
end

section
/-! SUPPORT. The invariant (10_state.md R40, R52; 20_memory.md R84, R85): it holds after reset, and every step keeps it under any host. -/

namespace Sys2Proof.Machine

/-- The invariant but for the run state: what holds at every point of a step. -/
def Canonical (s : State) : Prop :=
  maskFlags s.flags = s.flags ∧ Memory.wf s.mem = true ∧ Permissions.wf s.perm = true ∧ ∀ c ∈ s.perm, c.2 &&& 0xF8 = 0

theorem inv_iff {s : State} : Inv s ↔ Canonical s ∧ (s.runState = .idle ∨ s.runState = .halted) :=
  ⟨fun h => ⟨⟨h.flags, h.mem, h.perm, h.permBits⟩, h.runState⟩, fun ⟨⟨hf, hm, hp, hb⟩, hr⟩ => ⟨hf, hm, hp, hb, hr⟩⟩

theorem Kept.canonical {s t : State} (h : Kept s t) (hs : Canonical s) : Canonical t := by
  obtain ⟨hf, hm, hp, hb⟩ := hs
  exact ⟨h.flags hf, h.mem hm, h.perm hp, h.permBits hb⟩

/-- Where `o` answers next, and where the host ends the run in it, the state is canonical; `st` is the state of what `o` answers. A stop of
the model's own is no end of a run. -/
def EndsCanonical {α : Type} (st : α → State) (o : Host.Outcome α Fault Refusal) : Prop :=
  match o with
  | .next a => Canonical (st a)
  | .fault (.hostStopped _ t) => Canonical t
  | .fault .halted | .fault (.notIdle _) | .fault .endlessPrefixes | .fault .repeatBound | .refused _ => True

theorem EndsCanonical.thenDo {α β : Type} {st : α → State} {st' : β → State} {o : Host.Outcome α Fault Refusal}
    {f : α → Host.Outcome β Fault Refusal} (h : EndsCanonical st o) (k : ∀ a, Canonical (st a) → EndsCanonical st' (f a)) :
    EndsCanonical st' (thenDo o f) := by
  cases o with
  | next a => exact k a h
  | fault r => cases r <;> exact h
  | refused r => trivial

theorem Stops.endsCanonical {α : Type} {st : α → State} {s : State} {f : Fault} (h : Stops s f) (hs : Canonical s) :
    EndsCanonical st (.fault f) := by
  obtain ⟨_, c, t, rfl, k⟩ := h
  exact k.canonical hs

theorem Runs.endsCanonical {s : State} {o : Out} (h : Runs s o) (hs : Canonical s) : EndsCanonical id o := by
  cases o with
  | next t => exact Kept.canonical h hs
  | fault f => exact Stops.endsCanonical h hs
  | refused r => exact h.elim

theorem RunsWith.endsCanonical {α : Type} {s : State} {o : Res α} (h : RunsWith s o) (hs : Canonical s) : EndsCanonical Prod.snd o := by
  cases o with
  | next p => exact Kept.canonical h hs
  | fault f => exact Stops.endsCanonical h hs
  | refused r => exact h.elim

theorem endsCanonical_exec (i : Instr) {s : State} (hs : Canonical s) : EndsCanonical id (exec i s) := by
  rcases runs_exec i s with h | h
  · exact h.endsCanonical hs
  · rw [h]; trivial

theorem endsCanonical_runChain (bound : Nat) {s : State} (hs : Canonical s) : EndsCanonical Prod.snd (runChain bound s) := by
  induction bound generalizing s with
  | zero => trivial
  | succ n ih =>
    refine ((runs_fetchBody s).endsCanonical hs).thenDo fun p hp => ?_
    dsimp only
    split
    · exact (endsCanonical_exec p.1.instr hp).thenDo fun t ht => ih ht
    · exact (endsCanonical_exec p.1.instr (s := p.2.setRunState .executing) hp).thenDo fun t ht => ht

/-! ### The end of the step -/

/-- After a dispatch the run state is Idle (60_exceptions.md R580). -/
theorem interrupt_runState {n : Byte} {s t : State} (h : interrupt n s = .next t) : t.runState = .idle := by
  obtain ⟨_, _, h⟩ := thenDo_eq_next h
  obtain ⟨_, _, h⟩ := thenDo_eq_next h
  obtain ⟨_, _, h⟩ := thenDo_eq_next h
  obtain ⟨_, _, _, h⟩ := thenWith_eq_next h
  obtain ⟨_, _, h⟩ := thenDo_eq_next h
  cases h
  rfl

/-- The end of a step is Idle or Halted (40_pipeline.md R220). -/
theorem endStep_runState {tf : Bool} {i : Instr} {s t : State} (h : endStep tf i s = .next t) :
    t.runState = .idle ∨ t.runState = .halted := by
  unfold endStep at h
  split at h
  · cases h; exact .inr ‹_›
  · dsimp only at h
    split at h
    · exact .inl (interrupt_runState h)
    · cases h; exact .inl rfl

theorem endsCanonical_endStep (tf : Bool) (i : Instr) {s : State} (hs : Canonical s) : EndsCanonical id (endStep tf i s) := by
  have counted : Canonical (s.setRunState .idle).counted := hs
  unfold endStep
  split
  · exact hs
  · dsimp only
    split
    · exact (runs_interrupt 1 _).endsCanonical counted
    · exact counted

theorem endsCanonical_step {s : State} (hs : Canonical s) : EndsCanonical id (step s) := by
  unfold step
  split
  · exact (endsCanonical_runChain _ (s := beginStep s) hs).thenDo fun p hp => endsCanonical_endStep _ p.1 hp
  · trivial
  · trivial

/-- A step ends Idle or Halted (40_pipeline.md R220). -/
theorem step_runState {s t : State} (h : step s = .next t) : t.runState = .idle ∨ t.runState = .halted := by
  unfold step at h
  split at h
  · obtain ⟨_, _, _, h⟩ := thenWith_eq_next h
    exact endStep_runState h
  · cases h
  · cases h

/-- Settles O13: the four facts of `Canonical` hold wherever a step ends, since no operation breaks them under any host (`runs_exec`), and
the end of the step leaves Idle or Halted. -/
theorem stepKeepsInv : Obligations.StepKeepsInv := by
  unfold Obligations.StepKeepsInv
  intro s hs
  obtain ⟨hc, _⟩ := inv_iff.1 hs
  have ends := endsCanonical_step hc
  refine ⟨fun t ht => inv_iff.2 ⟨?_, step_runState ht⟩, fun c t ht => ?_⟩
  · rw [ht] at ends; exact ends
  · rw [ht] at ends; exact ends

/-! ### Reset (10_state.md R60) -/

/-- After reset every address has every permission (20_memory.md R85, R86). -/
theorem allows_reset (k : Permission) (a : Addr) : State.reset.allows k a = true := by
  show (Config.allGranted &&& k.mask != 0) = true
  cases k <;> decide

/-- Settles O11: each value is the one `State.reset` writes; the permissions of an address nothing has changed are all granted. -/
theorem resetValues : Obligations.ResetValues := by
  unfold Obligations.ResetValues
  exact ⟨fun r => by cases r <;> rfl, rfl, rfl, rfl, rfl, rfl, rfl, rfl, rfl, rfl, rfl, rfl, allows_reset, by decide⟩

/-- Settles O12: FLAGS is 0xF002, memory and permissions list no byte, and the run state is Idle. -/
theorem invAtReset : Obligations.InvAtReset where
  flags := by decide
  mem := rfl
  perm := rfl
  permBits := fun _ hc => absurd hc List.not_mem_nil
  runState := .inl rfl

/-! ### Writes of FLAGS (10_state.md R40) -/

/-- Settles O18: `maskFlags` is idempotent, and a single-flag write changes the bit of its flag, which is no reserved one. -/
theorem flagsRegisterWrites : Obligations.FlagsRegisterWrites := by
  unfold Obligations.FlagsRegisterWrites
  exact ⟨fun _ _ => rfl, maskFlags_maskFlags, fun s f b n => getLsbD_putFlag f b s.flags n, fun _ f b h => maskFlags_putFlag f b h⟩

end Sys2Proof.Machine
end

section
/-! SUPPORT. Frames: what an operation leaves alone, given what it may write. A `Footprint` lists what may be written, `Frame p s t` says that
`t` differs from `s` in that only, and `Stays p s o` that `o` answers such a state under the quiet host. One lemma for each update and each
shared operation; a meaning composes them with `Stays.thenDo` and `StaysWith.thenWith`. -/

namespace Sys2Proof.Machine

/-! ### Bits of FLAGS -/

/-- Every bit of FLAGS that belongs to no flag of `fs` is as it was; where FLAGS is written as a whole, this says nothing of the reserved
bits (10_state.md R40). -/
def BitsKept (fs : List Flag) (whole : Bool) (v v' : Word) : Prop :=
  ∀ n, (∀ f ∈ fs, f.bit ≠ n) → (whole = true → ∃ f : Flag, f.bit = n) → v'.getLsbD n = v.getLsbD n

section
variable {fs : List Flag} {whole : Bool} {u v w : Word}

theorem BitsKept.refl : BitsKept fs whole v v := fun _ _ _ => rfl

theorem BitsKept.trans (h : BitsKept fs whole u v) (k : BitsKept fs whole v w) : BitsKept fs whole u w :=
  fun n hn hw => (k n hn hw).trans (h n hn hw)

/-- A flag not listed keeps its value. -/
theorem BitsKept.getFlag_eq (h : BitsKept fs whole u v) {f : Flag} (hf : f ∉ fs) : getFlag f v = getFlag f u :=
  h f.bit (fun _ hg e => hf (Flag.bit_inj.1 e ▸ hg)) fun _ => ⟨f, rfl⟩

theorem bitsKept_putFlag {f : Flag} (hf : f ∈ fs) (b : Bool) : BitsKept fs whole v (putFlag f b v) := by
  intro n hn _
  rw [getLsbD_putFlag, if_neg (hn f hf).symm]

theorem BitsKept.after_putFlag {f : Flag} (h : BitsKept fs whole u v) (hf : f ∈ fs) (b : Bool) : BitsKept fs whole u (putFlag f b v) :=
  h.trans (bitsKept_putFlag hf b)

/-- A flag that is put back to the value it had counts as not written (42_arithmetic.md R315). -/
theorem BitsKept.restored {f : Flag} (h : BitsKept (f :: fs) whole u v) : BitsKept fs whole u (putFlag f (getFlag f u) v) := by
  intro n hn hw
  rw [getLsbD_putFlag]
  split
  · subst n; rfl
  · refine h n (fun g hg => ?_) hw
    rcases List.mem_cons.1 hg with rfl | hg
    · exact Ne.symm ‹_›
    · exact hn g hg

theorem BitsKept.after_putSZP {w : Nat} (h : BitsKept fs whole u v) (r : BitVec w) (hf : [.SF, .ZF, .PF] ⊆ fs) :
    BitsKept fs whole u (putSZP r v) :=
  ((h.after_putFlag (hf (by decide)) _).after_putFlag (hf (by decide)) _).after_putFlag (hf (by decide)) _

theorem statusFlags_szp (h : statusFlags ⊆ fs) : [.SF, .ZF, .PF] ⊆ fs := List.Subset.trans (by decide) h

theorem bitsKept_addFlags {w : Nat} (a b : BitVec w) (c : Bool) (h : statusFlags ⊆ fs) : BitsKept fs whole v (addFlags a b c v) :=
  (((bitsKept_putFlag (h (by decide)) _).after_putFlag (h (by decide)) _).after_putFlag (h (by decide)) _).after_putSZP _ (statusFlags_szp h)

theorem bitsKept_subFlags {w : Nat} (a b : BitVec w) (c : Bool) (h : statusFlags ⊆ fs) : BitsKept fs whole v (subFlags a b c v) :=
  (((bitsKept_putFlag (h (by decide)) _).after_putFlag (h (by decide)) _).after_putFlag (h (by decide)) _).after_putSZP _ (statusFlags_szp h)

theorem bitsKept_clearStatus (h : statusFlags ⊆ fs) : BitsKept fs whole v (clearStatus v) :=
  (((((bitsKept_putFlag (h (by decide)) _).after_putFlag (h (by decide)) _).after_putFlag (h (by decide)) _).after_putFlag (h (by decide)) _).after_putFlag
    (h (by decide)) _).after_putFlag (h (by decide)) _

/-- A shift or rotate step writes CF and OF (44_logic_shift.md R408). -/
theorem bitsKept_shiftSteps {w : Nat} (op : ShiftOp) (n : Nat) (q : BitVec w × Word) (h : [.CF, .OF] ⊆ fs) :
    BitsKept fs whole q.2 (shiftSteps op n q).2 := by
  induction n generalizing q with
  | zero => exact .refl
  | succ n ih =>
    have once : BitsKept fs whole q.2 (shiftStep op q).2 :=
      (bitsKept_putFlag (h (by decide)) _).after_putFlag (h (by decide)) _
    exact once.trans (ih _)

/-- A write of FLAGS as a whole that may write every flag. -/
theorem bitsKept_all (h : ∀ f, f ∈ fs) : BitsKept fs true u v := fun n hn hw => by
  obtain ⟨f, hf⟩ := hw rfl
  exact absurd hf (hn f (h f))

/-- SAHF keeps the flags of the high byte (41_data_transfer.md R271). -/
theorem bitsKept_sahf (v : Word) (b : Byte) :
    BitsKept [.CF, .PF, .AF, .ZF, .SF] true v (maskFlags ((v &&& 0xFF00) ||| zext16 b)) := by
  intro n hn hw
  obtain ⟨f, rfl⟩ := hw rfl
  show getFlag f _ = getFlag f v
  rw [getFlag_maskFlags]
  cases f with
  | CF | PF | AF | ZF | SF => exact absurd rfl (hn _ (by decide))
  | TF | IF | DF | OF => simp [getFlag, zext16, Flag.bit]

end

/-! ### Footprints and frames -/

/-- What an operation may write. -/
structure Footprint where
  /-- The general registers. -/
  dests : List Dest := []
  /-- The flags. -/
  flags : List Flag := []
  /-- FLAGS is written as a whole, so that the reserved bits may change (10_state.md R40). -/
  wholeFlags : Bool := false
  /-- The segment registers. -/
  segs : List SReg := []
  /-- IP may change. -/
  jumps : Bool := false
  /-- The transient fields of the prefixes may change (40_pipeline.md R203-R207). -/
  prefixes : Bool := false
  /-- An interrupt is dispatched (60_exceptions.md R580). -/
  dispatches : Bool := false
  /-- The core becomes Halted (47_system.md R530). -/
  halts : Bool := false

/-- `t` differs from `s` at most in what `p` lists, in memory, and in the record of host calls, the script and the draws, which only
advance. -/
structure Frame (p : Footprint) (s t : State) : Prop where
  reg : ∀ k : Reg16, (∀ d ∈ p.dests, d.wide ≠ k) → t.reg k = s.reg k
  reg8 : ∀ k : Reg8, (∀ d ∈ p.dests, d ≠ .byte k ∧ d ≠ .word (wideReg k)) → t.reg8 k = s.reg8 k
  bits : BitsKept p.flags p.wholeFlags s.flags t.flags
  sreg : ∀ k, k ∉ p.segs → t.sreg k = s.sreg k
  ip : p.jumps = false → t.ip = s.ip
  instructionCount : t.instructionCount = s.instructionCount
  singleStep : t.singleStep = s.singleStep
  atInterrupt : t.atInterrupt = s.atInterrupt
  ea : t.ea = s.ea
  stepBytes : t.stepBytes = s.stepBytes
  transient : p.prefixes = false → t.segOverride = s.segOverride ∧ t.rep = s.rep ∧ t.repeatWhile = s.repeatWhile ∧
    t.lastPrefixRep = s.lastPrefixRep
  raised : p.dispatches = false → t.raised = s.raised
  runState : p.dispatches = false → p.halts = false → t.runState = s.runState
  calls : ∃ new, t.calls = new ++ s.calls
  host : ∃ used, s.host = used ++ t.host
  draws : s.draws ≤ t.draws

/-- Under the quiet host `o` answers a next state, which differs from `s` at most in what `p` lists. -/
def Stays (p : Footprint) (s : State) (o : Out) : Prop := Quiet s → ∃ t, o = .next t ∧ Frame p s t

/-- As `Stays`, for an operation that also gives a value. -/
def StaysWith {α : Type} (p : Footprint) (s : State) (o : Res α) : Prop := Quiet s → ∃ a t, o = .next (a, t) ∧ Frame p s t

section
variable {p : Footprint} {s t u : State}

theorem Frame.refl (p : Footprint) (s : State) : Frame p s s where
  reg _ _ := rfl
  reg8 _ _ := rfl
  bits := .refl
  sreg _ _ := rfl
  ip _ := rfl
  instructionCount := rfl
  singleStep := rfl
  atInterrupt := rfl
  ea := rfl
  stepBytes := rfl
  transient _ := ⟨rfl, rfl, rfl, rfl⟩
  raised _ := rfl
  runState _ _ := rfl
  calls := ⟨[], rfl⟩
  host := ⟨[], rfl⟩
  draws := le_refl _

theorem Frame.trans (h : Frame p s t) (k : Frame p t u) : Frame p s u where
  reg r hr := (k.reg r hr).trans (h.reg r hr)
  reg8 r hr := (k.reg8 r hr).trans (h.reg8 r hr)
  bits := h.bits.trans k.bits
  sreg r hr := (k.sreg r hr).trans (h.sreg r hr)
  ip hp := (k.ip hp).trans (h.ip hp)
  instructionCount := k.instructionCount.trans h.instructionCount
  singleStep := k.singleStep.trans h.singleStep
  atInterrupt := k.atInterrupt.trans h.atInterrupt
  ea := k.ea.trans h.ea
  stepBytes := k.stepBytes.trans h.stepBytes
  transient hp := by
    obtain ⟨h1, h2, h3, h4⟩ := h.transient hp
    obtain ⟨k1, k2, k3, k4⟩ := k.transient hp
    exact ⟨k1.trans h1, k2.trans h2, k3.trans h3, k4.trans h4⟩
  raised hp := (k.raised hp).trans (h.raised hp)
  runState hp hh := (k.runState hp hh).trans (h.runState hp hh)
  calls := by
    obtain ⟨a, ha⟩ := h.calls
    obtain ⟨b, hb⟩ := k.calls
    exact ⟨b ++ a, by rw [hb, ha, List.append_assoc]⟩
  host := by
    obtain ⟨a, ha⟩ := h.host
    obtain ⟨b, hb⟩ := k.host
    exact ⟨a ++ b, by rw [ha, hb, List.append_assoc]⟩
  draws := h.draws.trans k.draws

/-- The quiet host stays quiet: its script is used up from the front. -/
theorem Frame.quiet (h : Frame p s t) (hs : Quiet s) : Quiet t := by
  obtain ⟨used, hu⟩ := h.host
  exact fun r hr => hs r (by rw [hu]; exact List.mem_append_right _ hr)

/-- A flag not listed keeps its value. -/
theorem Frame.flag (h : Frame p s t) {f : Flag} (hf : f ∉ p.flags) : t.flag f = s.flag f := h.bits.getFlag_eq hf

/-! ### Plain updates -/

theorem frame_setReg {r : Reg16} (h : .word r ∈ p.dests) (s : State) (v : Word) : Frame p s (s.setReg r v) :=
  { Frame.refl p s with
    reg := fun _ hk => State.reg_setReg_ne s v (hk _ h).symm
    reg8 := fun _ hk => State.reg8_setReg_ne s v fun e => (hk _ h).2 (congrArg Dest.word e.symm) }

theorem frame_setReg8 {r : Reg8} (h : .byte r ∈ p.dests ∨ .word (wideReg r) ∈ p.dests) (s : State) (v : Byte) :
    Frame p s (s.setReg8 r v) :=
  { Frame.refl p s with
    reg := fun _ hk => State.reg_setReg8_ne s v (h.elim (fun h => (hk _ h).symm) fun h => (hk _ h).symm)
    reg8 := fun _ hk => State.reg8_setReg8_ne s v fun e => h.elim (fun h => (hk _ h).1 (congrArg Dest.byte e.symm))
      fun h => (hk _ h).2 (congrArg (Dest.word ∘ wideReg) e.symm) }

theorem frame_setSReg {r : SReg} (h : r ∈ p.segs) (s : State) (v : Word) : Frame p s (s.setSReg r v) :=
  { Frame.refl p s with sreg := fun _ hk => State.sreg_setSReg_ne s v fun e => hk (e ▸ h) }

theorem frame_setIp (h : p.jumps = true) (s : State) (v : Word) : Frame p s (s.setIp v) :=
  { Frame.refl p s with ip := fun hp => by simp [h] at hp }

theorem frame_setRunState (h : p.dispatches = true ∨ p.halts = true) (s : State) (r : RunState) : Frame p s (s.setRunState r) :=
  { Frame.refl p s with runState := fun hp hh => by simp [hp, hh] at h }

theorem frame_markRaised (h : p.dispatches = true) (s : State) : Frame p s s.markRaised :=
  { Frame.refl p s with raised := fun hp => by simp [h] at hp }

theorem frame_mapFlags {g : Word → Word} (h : BitsKept p.flags p.wholeFlags s.flags (g s.flags)) : Frame p s (s.mapFlags g) :=
  { Frame.refl p s with bits := h }

theorem frame_setFlag {f : Flag} (h : f ∈ p.flags) (s : State) (b : Bool) : Frame p s (s.setFlag f b) :=
  frame_mapFlags (g := putFlag f b) (bitsKept_putFlag h b)

theorem frame_drawn (s : State) : Frame p s s.drawn := { Frame.refl p s with draws := Nat.le_succ _ }

theorem frame_freeFlag {f : Flag} (h : f ∈ p.flags) (s : State) : Frame p s (s.freeFlag f) :=
  (frame_setFlag h s s.draw).trans (frame_drawn _)

theorem frame_freeFlags {fs : List Flag} (h : fs ⊆ p.flags) (s : State) : Frame p s (s.freeFlags fs) := by
  induction fs generalizing s with
  | nil => exact .refl p s
  | cons f fs ih =>
    exact (frame_freeFlag (h List.mem_cons_self) s).trans (ih (fun g hg => h (List.mem_cons_of_mem f hg)) _)

theorem frame_poke (s : State) (a : Addr) (v : Byte) : Frame p s (s.poke a v) := { Frame.refl p s with }

theorem frame_told (s : State) (c : HostCall) : Frame p s (s.told c) :=
  { Frame.refl p s with calls := ⟨[c], rfl⟩, host := (kept_told s c).host }

theorem frame_checked (s : State) (k : Permission) (a : Addr) : Frame p s (s.checked k a) := by
  unfold State.checked
  split
  · exact .refl p s
  · exact frame_told s _

theorem frame_checkedWord (s : State) (k : Permission) (seg off : Word) : Frame p s (s.checkedWord k seg off) :=
  (frame_checked s k _).trans (frame_checked _ k _)

theorem frame_checkedFar (s : State) (seg off : Word) : Frame p s (s.checkedFar seg off) :=
  (frame_checkedWord s _ seg off).trans (frame_checkedWord _ _ seg (off + 2))

theorem frame_storeByte (s : State) (seg off : Word) (v : Byte) : Frame p s (s.storeByte seg off v) :=
  (frame_checked s _ _).trans (frame_poke _ _ v)

theorem frame_storeWord (s : State) (seg off v : Word) : Frame p s (s.storeWord seg off v) :=
  (frame_storeByte s seg off _).trans (frame_storeByte _ seg (off + 1) _)

theorem frame_pushed (h : .word .sp ∈ p.dests) (s : State) (v : Word) : Frame p s (s.pushed v) :=
  (frame_setReg h s _).trans (frame_storeWord _ _ _ v)

theorem frame_popped (h : .word .sp ∈ p.dests) (s : State) : Frame p s s.popped :=
  (frame_checkedWord s _ _ _).trans (frame_setReg h _ _)

/-! ### Sequencing -/

theorem Stays.next (h : Frame p s t) : Stays p s (.next t) := fun _ => ⟨t, rfl, h⟩

theorem StaysWith.next {α : Type} {a : α} (h : Frame p s t) : StaysWith p s (.next (a, t)) := fun _ => ⟨a, t, rfl, h⟩

theorem Stays.of_frame {o : Out} (h : Frame p s t) (k : Stays p t o) : Stays p s o := by
  intro hs
  obtain ⟨u, ho, hu⟩ := k (h.quiet hs)
  exact ⟨u, ho, h.trans hu⟩

theorem Stays.thenDo {o : Out} {f : State → Out} (h : Stays p s o) (k : ∀ t, Frame p s t → Stays p t (f t)) :
    Stays p s (thenDo o f) := by
  intro hs
  obtain ⟨t, rfl, ht⟩ := h hs
  exact Stays.of_frame ht (k t ht) hs

theorem StaysWith.thenWith {α : Type} {o : Res α} {f : α → State → Out} (h : StaysWith p s o)
    (k : ∀ a t, Frame p s t → Stays p t (f a t)) : Stays p s (thenWith o f) := by
  intro hs
  obtain ⟨a, t, rfl, ht⟩ := h hs
  exact Stays.of_frame ht (k a t ht) hs

/-! ### Calls, accesses and the stack -/

theorem stays_callHost {c : HostCall} (hc : c.isInterrupt = false) (s : State) : Stays p s (callHost c s) :=
  fun hs => ⟨_, callHost_quiet c hs hc, frame_told s c⟩

theorem stays_portRead {c : HostCall} (hc : c.isInterrupt = false) (s : State) : StaysWith p s (portRead c s) := by
  intro hs
  rw [portRead_quiet c hs hc]
  cases s.host.head?.bind HostReply.answer with
  | some v => exact ⟨v, _, rfl, frame_told s c⟩
  | none => exact ⟨_, _, rfl, (frame_told s c).trans (frame_drawn _)⟩

theorem stays_memRead8 (seg off : Word) (s : State) : StaysWith p s (memRead8 seg off s) :=
  fun hs => ⟨_, _, memRead8_quiet seg off hs, frame_checked s _ _⟩

theorem stays_memRead16 (seg off : Word) (s : State) : StaysWith p s (memRead16 seg off s) :=
  fun hs => ⟨_, _, memRead16_quiet seg off hs, frame_checkedWord s _ _ _⟩

theorem stays_memWrite8 (seg off : Word) (v : Byte) (s : State) : Stays p s (memWrite8 seg off v s) :=
  fun hs => ⟨_, memWrite8_quiet seg off v hs, frame_storeByte s _ _ _⟩

theorem stays_memWrite16 (seg off v : Word) (s : State) : Stays p s (memWrite16 seg off v s) :=
  fun hs => ⟨_, memWrite16_quiet seg off v hs, frame_storeWord s _ _ _⟩

theorem stays_push16 (h : .word .sp ∈ p.dests) (v : Word) (s : State) : Stays p s (push16 v s) :=
  fun hs => ⟨_, push16_quiet v hs, frame_pushed h s v⟩

theorem stays_pop16 (h : .word .sp ∈ p.dests) (s : State) : StaysWith p s (pop16 s) :=
  fun hs => ⟨_, _, pop16_quiet hs, frame_popped h s⟩

/-! ### Taking an interrupt and returning from one -/

/-- What a dispatch writes: SP, TF, IF, CS and IP (60_exceptions.md R580). -/
structure Footprint.Dispatches (p : Footprint) : Prop where
  sp : .word .sp ∈ p.dests
  trapFlag : .TF ∈ p.flags
  interruptFlag : .IF ∈ p.flags
  cs : .cs ∈ p.segs
  jumps : p.jumps = true
  dispatches : p.dispatches = true

theorem frame_framed (h : p.Dispatches) (s : State) (n : Byte) : Frame p s (s.framed n) :=
  (frame_pushed h.sp s _).trans ((frame_pushed h.sp _ _).trans ((frame_pushed h.sp _ _).trans
    ((frame_setFlag h.trapFlag _ false).trans ((frame_setFlag h.interruptFlag _ false).trans (frame_checkedFar _ _ _)))))

theorem frame_presented (h : p.Dispatches) (s : State) (n : Byte) : Frame p s (s.presented n) :=
  (frame_framed h s n).trans ((frame_setIp h.jumps _ _).trans ((frame_setSReg h.cs _ _).trans
    ((frame_markRaised h.dispatches _).trans (frame_setRunState (.inl h.dispatches) _ _))))

theorem stays_interrupt (h : p.Dispatches) (hi : QuietAtInterrupt s) (n : Byte) : Stays p s (interrupt n s) :=
  fun hs => ⟨_, interrupt_quiet n hs hi,
    (frame_presented h s n).trans ((frame_told _ _).trans (frame_setRunState (.inl h.dispatches) _ _))⟩

theorem stays_divideFault (h : p.Dispatches) (hf : statusFlags ⊆ p.flags) (hi : QuietAtInterrupt s) : Stays p s (divideFault s) :=
  have free := frame_freeFlags hf s
  Stays.of_frame free (stays_interrupt h (quietAtInterrupt_of free.atInterrupt hi) 0)

theorem frame_setFlags16 (hf : ∀ f, f ∈ p.flags) (hw : p.wholeFlags = true) (s : State) (v : Word) : Frame p s (s.setFlags16 v) :=
  frame_mapFlags (g := fun _ => maskFlags v) (hw ▸ bitsKept_all hf)

theorem stays_returnFromInterrupt (hsp : .word .sp ∈ p.dests) (hcs : .cs ∈ p.segs) (hip : p.jumps = true) (hf : ∀ f, f ∈ p.flags)
    (hw : p.wholeFlags = true) (s : State) : Stays p s (returnFromInterrupt s) :=
  (stays_pop16 hsp s).thenWith fun v t _ => Stays.of_frame (frame_setIp hip t v)
    ((stays_pop16 hsp _).thenWith fun v t _ => Stays.of_frame (frame_setSReg hcs t v)
      ((stays_pop16 hsp _).thenWith fun v t _ => .next (frame_setFlags16 hf hw t v)))

/-! ### Operands -/

theorem frame_seen8 (e : Rm8) (s : State) : Frame p s (e.seen s) := by
  cases e with
  | reg r => exact .refl p s
  | mem m => exact frame_checked s _ _

theorem frame_seen16 (e : Rm16) (s : State) : Frame p s (e.seen s) := by
  cases e with
  | reg r => exact .refl p s
  | mem m => exact frame_checkedWord s _ _ _

theorem stays_readRm8 (e : Rm8) (s : State) : StaysWith p s (readRm8 e s) :=
  fun hs => ⟨_, _, readRm8_quiet e hs, frame_seen8 e s⟩

theorem stays_readRm16 (e : Rm16) (s : State) : StaysWith p s (readRm16 e s) :=
  fun hs => ⟨_, _, readRm16_quiet e hs, frame_seen16 e s⟩

theorem stays_readFar (m : MemOp) (s : State) : StaysWith p s (readFar m s) :=
  fun hs => ⟨_, _, readFar_quiet m hs, frame_checkedFar s _ _⟩

theorem stays_writeRm8 {e : Rm8} (h : e.dests ⊆ p.dests) (v : Byte) (s t : State) : Stays p t (writeLoc8 (locate8 e s) v t) := by
  cases e with
  | reg r => exact .next (frame_setReg8 (.inl (h List.mem_cons_self)) t v)
  | mem m => exact stays_memWrite8 _ _ v t

theorem stays_writeRm16 {e : Rm16} (h : e.dests ⊆ p.dests) (v : Word) (s t : State) : Stays p t (writeLoc16 (locate16 e s) v t) := by
  cases e with
  | reg r => exact .next (frame_setReg (h List.mem_cons_self) t v)
  | mem m => exact stays_memWrite16 _ _ v t

/-- An operation that reads E first, with the value E has (40_pipeline.md R211). -/
theorem stays_thenReadRm8 {e : Rm8} {f : Byte → State → Out} (k : Stays p (e.seen s) (f (e.value s) (e.seen s))) :
    Stays p s (thenWith (readRm8 e s) f) := by
  intro hs
  rw [readRm8_quiet e hs, thenWith_next]
  exact Stays.of_frame (frame_seen8 e s) k hs

theorem stays_thenReadRm16 {e : Rm16} {f : Word → State → Out} (k : Stays p (e.seen s) (f (e.value s) (e.seen s))) :
    Stays p s (thenWith (readRm16 e s) f) := by
  intro hs
  rw [readRm16_quiet e hs, thenWith_next]
  exact Stays.of_frame (frame_seen16 e s) k hs

theorem stays_modifyRm8 {e : Rm8} (h : e.dests ⊆ p.dests) {f : Byte → State → Byte × State}
    (hf : ∀ v t, Frame p s t → Frame p t (f v t).2) : Stays p s (modifyRm8 e f s) :=
  (stays_readRm8 e s).thenWith fun v t ht => Stays.of_frame (hf v t ht) (stays_writeRm8 h _ s _)

theorem stays_modifyRm16 {e : Rm16} (h : e.dests ⊆ p.dests) {f : Word → State → Word × State}
    (hf : ∀ v t, Frame p s t → Frame p t (f v t).2) : Stays p s (modifyRm16 e f s) :=
  (stays_readRm16 e s).thenWith fun v t ht => Stays.of_frame (hf v t ht) (stays_writeRm16 h _ s _)

end

end Sys2Proof.Machine
end

section
/-! SUPPORT. What the instructions of each family write, under the quiet host: one lemma for each shared form, for any footprint that lists
what the form writes. -/

namespace Sys2Proof.Machine

section
variable {p : Footprint} {s : State}

/-! ### The two-operand instructions, INC, DEC, NEG and the shifts -/

theorem frame_logicFlags {w : Nat} (hf : statusFlags ⊆ p.flags) (r : BitVec w) (s : State) : Frame p s (logicFlags r s) := by
  unfold logicFlags
  refine Frame.trans (frame_mapFlags ?_) (frame_freeFlag (hf (by decide)) _)
  exact ((bitsKept_putFlag (hf (by decide)) false).after_putFlag (hf (by decide)) false).after_putSZP r (statusFlags_szp hf)

theorem frame_aluApply {w : Nat} (hf : statusFlags ⊆ p.flags) (op : AluOp) (a b : BitVec w) (s : State) :
    Frame p s (aluApply op a b s).2 := by
  cases op with
  | add | adc => exact frame_mapFlags (bitsKept_addFlags _ _ _ hf)
  | sub | sbb | cmp => exact frame_mapFlags (bitsKept_subFlags _ _ _ hf)
  | and | or | xor | test => exact frame_logicFlags hf _ s

theorem stays_aluRm8 {op : AluOp} {e : Rm8} (hd : op.writes = true → e.dests ⊆ p.dests) (hf : statusFlags ⊆ p.flags)
    (src : State → Byte) (s : State) : Stays p s (aluRm8 op e src s) := by
  refine (stays_readRm8 e s).thenWith fun a t _ => ?_
  have flags := frame_aluApply hf op a (src t) t
  dsimp only
  split
  · exact Stays.of_frame flags (stays_writeRm8 (hd ‹_›) _ s _)
  · exact .next flags

theorem stays_aluRm16 {op : AluOp} {e : Rm16} (hd : op.writes = true → e.dests ⊆ p.dests) (hf : statusFlags ⊆ p.flags)
    (src : State → Word) (s : State) : Stays p s (aluRm16 op e src s) := by
  refine (stays_readRm16 e s).thenWith fun a t _ => ?_
  have flags := frame_aluApply hf op a (src t) t
  dsimp only
  split
  · exact Stays.of_frame flags (stays_writeRm16 (hd ‹_›) _ s _)
  · exact .next flags

theorem frame_aluResult8 {op : AluOp} {g : Reg8} (hd : op.writes = true → .byte g ∈ p.dests) (hf : statusFlags ⊆ p.flags)
    (a b : Byte) (s : State) :
    Frame p s (if op.writes then (aluApply op a b s).2.setReg8 g (aluApply op a b s).1 else (aluApply op a b s).2) := by
  split
  · exact (frame_aluApply hf op a b s).trans (frame_setReg8 (.inl (hd ‹_›)) _ _)
  · exact frame_aluApply hf op a b s

theorem frame_aluResult16 {op : AluOp} {g : Reg16} (hd : op.writes = true → .word g ∈ p.dests) (hf : statusFlags ⊆ p.flags)
    (a b : Word) (s : State) :
    Frame p s (if op.writes then (aluApply op a b s).2.setReg g (aluApply op a b s).1 else (aluApply op a b s).2) := by
  split
  · exact (frame_aluApply hf op a b s).trans (frame_setReg (hd ‹_›) _ _)
  · exact frame_aluApply hf op a b s

theorem stays_aluReg8 {op : AluOp} {g : Reg8} (hd : op.writes = true → .byte g ∈ p.dests) (hf : statusFlags ⊆ p.flags)
    (e : Rm8) (s : State) : Stays p s (aluReg8 op g e s) :=
  (stays_readRm8 e s).thenWith fun b t _ => .next (frame_aluResult8 hd hf (s.reg8 g) b t)

theorem stays_aluReg16 {op : AluOp} {g : Reg16} (hd : op.writes = true → .word g ∈ p.dests) (hf : statusFlags ⊆ p.flags)
    (e : Rm16) (s : State) : Stays p s (aluReg16 op g e s) :=
  (stays_readRm16 e s).thenWith fun b t _ => .next (frame_aluResult16 hd hf (s.reg g) b t)

theorem stays_aluAcc8 {op : AluOp} (hd : op.writes = true → .byte .al ∈ p.dests) (hf : statusFlags ⊆ p.flags)
    (imm : Byte) (s : State) : Stays p s (aluAcc8 op imm s) := .next (frame_aluResult8 hd hf (s.reg8 .al) imm s)

theorem stays_aluAcc16 {op : AluOp} (hd : op.writes = true → .word .ax ∈ p.dests) (hf : statusFlags ⊆ p.flags)
    (imm : Word) (s : State) : Stays p s (aluAcc16 op imm s) := .next (frame_aluResult16 hd hf (s.reg .ax) imm s)

/-- INC and DEC: the flags of an addition or subtraction, but CF gets back the value it had at the start (42_arithmetic.md R315, R316). -/
theorem frame_keepingCF {t : State} {g : Word → Word} (hc : .CF ∉ p.flags) (ht : Frame p s t)
    (hg : BitsKept (.CF :: p.flags) p.wholeFlags t.flags (g t.flags)) : Frame p t ((t.mapFlags g).setFlag .CF (s.flag .CF)) := by
  rw [← ht.flag hc]
  exact frame_mapFlags (g := fun v => putFlag .CF (t.flag .CF) (g v)) hg.restored

/-- The status flags but CF, which INC and DEC write (42_arithmetic.md R315, R316). -/
def incFlags : List Flag := [.PF, .AF, .ZF, .SF, .OF]

theorem frame_incValue {w : Nat} {t : State} (hf : p.flags = incFlags) (v : BitVec w) (ht : Frame p s t) :
    Frame p t (incValue (s.flag .CF) v t).2 :=
  frame_keepingCF (by rw [hf]; decide) ht (bitsKept_addFlags v 1 false (by rw [hf]; decide))

theorem frame_decValue {w : Nat} {t : State} (hf : p.flags = incFlags) (v : BitVec w) (ht : Frame p s t) :
    Frame p t (decValue (s.flag .CF) v t).2 :=
  frame_keepingCF (by rw [hf]; decide) ht (bitsKept_subFlags v 1 false (by rw [hf]; decide))

theorem frame_negValue {w : Nat} (hf : statusFlags ⊆ p.flags) (v : BitVec w) (t : State) : Frame p t (negValue v t).2 :=
  frame_mapFlags (bitsKept_subFlags 0 v false hf)

/-- The flags a shift or rotate by a count above 0 writes (44_logic_shift.md R400). -/
def shiftFlags (op : ShiftOp) : List Flag := if op.isShift then statusFlags else [.CF, .OF]

theorem frame_shiftValue {w : Nat} {op : ShiftOp} {n : Nat} (hf : n ≠ 0 → shiftFlags op ⊆ p.flags) (v : BitVec w) (t : State) :
    Frame p t (shiftValue op n v t).2 := by
  unfold shiftValue
  split
  · exact .refl p t
  · specialize hf ‹_›
    unfold shiftFlags at hf
    dsimp only
    have steps (h : [.CF, .OF] ⊆ p.flags) : Frame p t { t with flags := (shiftSteps op n (v, t.flags)).2 } :=
      { Frame.refl p t with bits := bitsKept_shiftSteps op n (v, t.flags) h }
    split at hf
    · rw [if_pos ‹_›]
      exact (steps (List.Subset.trans (by decide) hf)).trans ((frame_mapFlags (BitsKept.refl.after_putSZP _ (statusFlags_szp hf))).trans
        (frame_freeFlag (hf (by decide)) _))
    · rw [if_neg ‹_›]
      exact steps hf

theorem stays_shiftRm8 {op : ShiftOp} {n : Nat} {e : Rm8} (hd : e.dests ⊆ p.dests) (hf : n ≠ 0 → shiftFlags op ⊆ p.flags) (s : State) :
    Stays p s (shiftRm8 op n e s) := stays_modifyRm8 hd fun v t _ => frame_shiftValue hf v t

theorem stays_shiftRm16 {op : ShiftOp} {n : Nat} {e : Rm16} (hd : e.dests ⊆ p.dests) (hf : n ≠ 0 → shiftFlags op ⊆ p.flags) (s : State) :
    Stays p s (shiftRm16 op n e s) := stays_modifyRm16 hd fun v t _ => frame_shiftValue hf v t

/-- What a shift by CL may write, where CL is not 0 (44_logic_shift.md R400). -/
theorem subset_of_clCount {s : State} {fs : List Flag} (h : clCount s ≠ 0) : fs ⊆ if s.reg8 .cl = 0 then [] else fs := by
  rw [if_neg fun e => h (by simp [clCount, e])]
  exact List.Subset.refl _

/-! ### Multiply and divide -/

theorem frame_mulFlags (hf : statusFlags ⊆ p.flags) (high : Bool) (s : State) : Frame p s (mulFlags high s) :=
  (frame_setFlag (hf (by decide)) s high).trans ((frame_setFlag (hf (by decide)) _ high).trans
    (frame_freeFlags (List.Subset.trans (by decide) hf) _))

theorem frame_setProduct8 (ha : .word .ax ∈ p.dests) (hf : statusFlags ⊆ p.flags) (v : Word) (high : Bool) (s : State) :
    Frame p s (setProduct8 v high s) := (frame_setReg ha s v).trans (frame_mulFlags hf high _)

theorem frame_setProduct16 (ha : .word .ax ∈ p.dests) (hd : .word .dx ∈ p.dests) (hf : statusFlags ⊆ p.flags) (v : DWord) (high : Bool)
    (s : State) : Frame p s (setProduct16 v high s) :=
  (frame_setReg hd s _).trans ((frame_setReg ha _ _).trans (frame_mulFlags hf high _))

theorem frame_setQuotient8 (ha : .word .ax ∈ p.dests) (hf : statusFlags ⊆ p.flags) (q r : Byte) (s : State) :
    Frame p s (setQuotient8 q r s) :=
  (frame_setReg8 (r := .al) (.inr ha) s q).trans ((frame_setReg8 (r := .ah) (.inr ha) _ r).trans
    (frame_mapFlags (bitsKept_clearStatus hf)))

theorem frame_setQuotient16 (ha : .word .ax ∈ p.dests) (hd : .word .dx ∈ p.dests) (hf : statusFlags ⊆ p.flags) (q r : Word) (s : State) :
    Frame p s (setQuotient16 q r s) :=
  (frame_setReg ha s q).trans ((frame_setReg hd _ r).trans (frame_mapFlags (bitsKept_clearStatus hf)))

theorem frame_afterNegate (s : State) : Frame p s (afterNegate s) := by
  unfold afterNegate
  split
  · exact frame_drawn s
  · exact .refl p s

/-- What a division writes: the trap's fields where it faults, else its own registers; the status flags in either case
(42_arithmetic.md R322-R325). -/
structure Footprint.Divides (p : Footprint) (dests : List Dest) (s : State) (faults : Bool) : Prop where
  flags : statusFlags ⊆ p.flags
  trap : faults = true → p.Dispatches ∧ QuietAtInterrupt s
  result : faults = false → dests ⊆ p.dests

theorem Footprint.Divides.stays_divideFault {dests : List Dest} {faults : Bool} {t : State} (h : p.Divides dests s faults)
    (hf : faults = true) (ht : Frame p s t) : Stays p t (divideFault t) :=
  have ⟨hp, hi⟩ := h.trap hf
  Machine.stays_divideFault hp h.flags (quietAtInterrupt_of ht.atInterrupt hi)

theorem stays_execDivEb {e : Rm8} (h : p.Divides [.word .ax] s (divideFaults (.divEb e) s)) : Stays p s (execDivEb e s) := by
  unfold execDivEb
  refine stays_thenReadRm8 ?_
  rw [Rm8.reg_seen]
  cases ho : divideUnsigned (s.reg .ax).toNat (e.value s).toNat 0xFF with
  | none => exact h.stays_divideFault (by simp [divideFaults, ho]) (frame_seen8 e s)
  | some qr => exact .next (frame_setQuotient8 (h.result (by simp [divideFaults, ho]) (by simp)) h.flags _ _ _)

theorem stays_execDivEv {e : Rm16} (h : p.Divides [.word .ax, .word .dx] s (divideFaults (.divEv e) s)) :
    Stays p s (execDivEv e s) := by
  unfold execDivEv
  refine stays_thenReadRm16 ?_
  rw [dxAx_seen16]
  cases ho : divideUnsigned (dxAx s).toNat (e.value s).toNat 0xFFFF with
  | none => exact h.stays_divideFault (by simp [divideFaults, ho]) (frame_seen16 e s)
  | some qr =>
    have result := h.result (by simp [divideFaults, ho])
    exact .next (frame_setQuotient16 (result (by simp)) (result (by simp)) h.flags _ _ _)

theorem stays_execIdivEb {e : Rm8} (h : p.Divides [.word .ax] s (divideFaults (.idivEb e) s)) : Stays p s (execIdivEb e s) := by
  unfold execIdivEb
  refine stays_thenReadRm8 ?_
  cases ho : divideSigned (s.reg .ax).toInt (e.value s).toInt 127 with
  | none => exact h.stays_divideFault (by simp [divideFaults, ho]) (frame_seen8 e s)
  | some qr =>
    exact .next ((frame_afterNegate _).trans (frame_setQuotient8 (h.result (by simp [divideFaults, ho]) (by simp)) h.flags _ _ _))

theorem stays_execIdivEv {e : Rm16} (h : p.Divides [.word .ax, .word .dx] s (divideFaults (.idivEv e) s)) :
    Stays p s (execIdivEv e s) := by
  unfold execIdivEv
  refine stays_thenReadRm16 ?_
  cases ho : divideSigned (dxAx s).toInt (e.value s).toInt 32767 with
  | none => exact h.stays_divideFault (by simp [divideFaults, ho]) (frame_seen16 e s)
  | some qr =>
    have result := h.result (by simp [divideFaults, ho])
    exact .next ((frame_afterNegate _).trans (frame_setQuotient16 (result (by simp)) (result (by simp)) h.flags _ _ _))

/-! ### Decimal adjustment -/

theorem frame_putSZP {w : Nat} (hf : statusFlags ⊆ p.flags) (r : BitVec w) (s : State) : Frame p s (s.mapFlags (putSZP r)) :=
  frame_mapFlags (BitsKept.refl.after_putSZP r (statusFlags_szp hf))

theorem stays_asciiAdjust (ha : .word .ax ∈ p.dests) (hf : statusFlags ⊆ p.flags) (al6 ah1 : Byte → Byte) (s : State) :
    Stays p s (asciiAdjust al6 ah1 s) :=
  .next ((frame_setReg8 (r := .ah) (.inr ha) s _).trans ((frame_setFlag (hf (by decide)) _ _).trans
    ((frame_setFlag (hf (by decide)) _ _).trans ((frame_setReg8 (r := .al) (.inr ha) _ _).trans
      (frame_freeFlags (List.Subset.trans (by decide) hf) _)))))

theorem stays_decimalAdjust (ha : .byte .al ∈ p.dests) (hf : statusFlags ⊆ p.flags) (move : Byte → Byte → Byte) (s : State) :
    Stays p s (decimalAdjust move s) := by
  have band : Frame p s (if drawBand (s.reg8 .al) (s.flag .AF) (s.flag .CF) then s.drawn else s) := by
    split
    · exact frame_drawn s
    · exact .refl p s
  exact .next (band.trans ((frame_setReg8 (.inl ha) _ _).trans ((frame_setFlag (hf (by decide)) _ _).trans
    ((frame_setFlag (hf (by decide)) _ _).trans ((frame_putSZP hf _ _).trans
      (frame_freeFlags (List.Subset.trans (by decide) hf) _))))))

theorem stays_execAam {base : Byte} (h : p.Divides [.word .ax] s (base == 0)) : Stays p s (execAam base s) := by
  unfold execAam
  split
  · exact h.stays_divideFault (by simpa) (.refl p s)
  · have ha : .word .ax ∈ p.dests := h.result (by simpa) (by simp)
    exact .next ((frame_setReg8 (r := .ah) (.inr ha) s _).trans ((frame_setReg8 (r := .al) (.inr ha) _ _).trans
      ((frame_putSZP h.flags _ _).trans (frame_freeFlags (List.Subset.trans (by decide) h.flags) _))))

theorem stays_execAad (ha : .word .ax ∈ p.dests) (hf : statusFlags ⊆ p.flags) (base : Byte) (s : State) : Stays p s (execAad base s) :=
  .next ((frame_setReg8 (r := .al) (.inr ha) s _).trans ((frame_setReg8 (r := .ah) (.inr ha) _ _).trans
    ((frame_putSZP hf _ _).trans (frame_freeFlags (List.Subset.trans (by decide) hf) _))))

/-! ### Control transfer -/

theorem stays_jumpIf (hip : p.jumps = true) (cond : Bool) (rel : Byte) (s : State) : Stays p s (jumpIf cond rel s) := by
  unfold jumpIf
  split
  · exact .next (frame_setIp hip s _)
  · exact .next (.refl p s)

theorem stays_callNear (hsp : .word .sp ∈ p.dests) (hip : p.jumps = true) (ret : Word) (target : State → Word) (s : State) :
    Stays p s (thenDo (push16 ret s) fun t => .next (t.setIp (target t))) :=
  (stays_push16 hsp ret s).thenDo fun t _ => .next (frame_setIp hip t _)

theorem stays_callFar (hsp : .word .sp ∈ p.dests) (hcs : .cs ∈ p.segs) (hip : p.jumps = true) (off sg : Word) (s : State) :
    Stays p s (callFar off sg s) :=
  (stays_push16 hsp _ s).thenDo fun t _ => (stays_push16 hsp _ t).thenDo fun u _ =>
    .next ((frame_setSReg hcs u sg).trans (frame_setIp hip _ off))

theorem stays_returnNear (hsp : .word .sp ∈ p.dests) (hip : p.jumps = true) (n : Word) (s : State) : Stays p s (returnNear n s) :=
  (stays_pop16 hsp s).thenWith fun v t _ => .next ((frame_setIp hip t v).trans (frame_setReg hsp _ _))

theorem stays_returnFar (hsp : .word .sp ∈ p.dests) (hcs : .cs ∈ p.segs) (hip : p.jumps = true) (n : Word) (s : State) :
    Stays p s (returnFar n s) :=
  (stays_pop16 hsp s).thenWith fun v t _ => Stays.of_frame (frame_setIp hip t v)
    ((stays_pop16 hsp _).thenWith fun w u _ => .next ((frame_setSReg hcs u w).trans (frame_setReg hsp _ _)))

theorem stays_loop (hcx : .word .cx ∈ p.dests) (hip : p.jumps = true) (cond : Bool) (rel : Byte) (s : State) :
    Stays p s (jumpIf cond rel (countDown s)) := Stays.of_frame (frame_setReg hcx s _) (stays_jumpIf hip cond rel _)

/-! ### Data transfer -/

theorem stays_loadSReg {r : SReg} (hr : r ∈ p.segs) (e : Rm16) (s : State) : Stays p s (loadSReg r e s) :=
  (stays_readRm16 e s).thenWith fun v t _ => .next (frame_setSReg hr t v)

theorem stays_popSReg {r : SReg} (hsp : .word .sp ∈ p.dests) (hr : r ∈ p.segs) (s : State) : Stays p s (popSReg r s) :=
  (stays_pop16 hsp s).thenWith fun v t _ => .next (frame_setSReg hr t v)

theorem stays_loadFar {r : SReg} {g : Reg16} (hg : .word g ∈ p.dests) (hr : r ∈ p.segs) (m : MemOp) (s : State) :
    Stays p s (loadFar r g m s) :=
  (stays_readFar m s).thenWith fun q t _ => .next ((frame_setReg hg t q.1).trans (frame_setSReg hr _ q.2))

theorem stays_execPushEv (hsp : .word .sp ∈ p.dests) (e : Rm16) (s : State) : Stays p s (execPushEv e s) := by
  unfold execPushEv
  split
  · exact Stays.of_frame (frame_drawn s) (stays_push16 hsp _ _)
  · exact (stays_readRm16 e s).thenWith fun v t _ => stays_push16 hsp v t

theorem stays_execXchgEbGb {e : Rm8} {g : Reg8} (hg : .byte g ∈ p.dests) (he : e.dests ⊆ p.dests) (s : State) :
    Stays p s (execXchgEbGb e g s) :=
  (stays_readRm8 e s).thenWith fun v t _ => (stays_writeRm8 he _ s t).thenDo fun u _ => .next (frame_setReg8 (.inl hg) u v)

theorem stays_execXchgEvGv {e : Rm16} {g : Reg16} (hg : .word g ∈ p.dests) (he : e.dests ⊆ p.dests) (s : State) :
    Stays p s (execXchgEvGv e g s) :=
  (stays_readRm16 e s).thenWith fun v t _ => (stays_writeRm16 he _ s t).thenDo fun u _ => .next (frame_setReg hg u v)

theorem stays_readByteTo {r : Reg8} (hr : .byte r ∈ p.dests) (seg off : Word) (s : State) :
    Stays p s (thenWith (memRead8 seg off s) fun v t => .next (t.setReg8 r v)) :=
  (stays_memRead8 seg off s).thenWith fun v t _ => .next (frame_setReg8 (.inl hr) t v)

theorem stays_in8 (ha : .byte .al ∈ p.dests) (port : Word) (s : State) : Stays p s (in8 port s) :=
  (stays_portRead rfl s).thenWith fun _ t _ => .next (frame_setReg8 (.inl ha) t _)

theorem stays_in16 (ha : .word .ax ∈ p.dests) (port : Word) (s : State) : Stays p s (in16 port s) :=
  (stays_portRead rfl s).thenWith fun v t _ => .next (frame_setReg ha t v)

/-! ### The string instructions (45_string.md R430-R432) -/

/-- A body writes SI, DI, AX and the status flags at most, and so leaves CX to the loop. -/
def bodyFootprint : Footprint := { dests := [.word .si, .word .di, .word .ax], flags := statusFlags }

theorem Frame.bodyFootprint_cx {t : State} (h : Frame bodyFootprint s t) : t.reg .cx = s.reg .cx := h.reg .cx (by decide)

/-- The repeat loop: under the quiet host each round takes one from CX, so that the bound is never spent (45_string.md R432, R433). -/
theorem stays_repeatLoop {body : State → Out} (hcx : .word .cx ∈ p.dests) (hb : ∀ t, Stays p t (body t))
    (hc : ∀ t, Stays bodyFootprint t (body t)) (testsZf : Bool) {bound : Nat} {s : State} (hle : (s.reg .cx).toNat ≤ bound) :
    Stays p s (repeatLoop body testsZf bound s) := by
  induction bound generalizing s with
  | zero =>
    have h0 : s.reg .cx = 0 := BitVec.eq_of_toNat_eq (Nat.le_zero.1 hle)
    unfold repeatLoop
    rw [if_pos h0]
    exact .next (.refl p s)
  | succ n ih =>
    unfold repeatLoop
    split
    · exact .next (.refl p s)
    · rename_i h0
      intro hs
      obtain ⟨t, ht, frame⟩ := hb s hs
      obtain ⟨t', ht', frame'⟩ := hc s hs
      rw [ht] at ht'
      cases ht'
      have count : ((t.setReg .cx (t.reg .cx - 1)).reg .cx).toNat ≤ n := by
        rw [State.reg_setReg_self, frame'.bodyFootprint_cx]
        bv_omega
      dsimp only
      rw [ht, thenDo_next]
      refine Stays.of_frame (frame.trans (frame_setReg hcx t (t.reg .cx - 1))) ?_ hs
      split
      · exact .next (.refl p _)
      · exact ih count

theorem stays_stringOp {body : State → Out} (hcx : s.rep = true → .word .cx ∈ p.dests) (hb : ∀ t, Stays p t (body t))
    (hc : ∀ t, Stays bodyFootprint t (body t)) (testsZf : Bool) : Stays p s (stringOp body testsZf s) := by
  unfold stringOp
  split
  · refine stays_repeatLoop (hcx ‹_›) hb hc testsZf ?_
    have := (s.reg .cx).isLt
    omega
  · exact hb s

theorem frame_advance {r : Reg16} (hr : .word r ∈ p.dests) (n : Word) (s : State) : Frame p s (advance r n s) := frame_setReg hr s _

theorem stays_movsBody8 (hsi : .word .si ∈ p.dests) (hdi : .word .di ∈ p.dests) (s : State) : Stays p s (movsBody8 s) :=
  (stays_memRead8 _ _ s).thenWith fun v t _ => (stays_memWrite8 _ _ v t).thenDo fun u _ =>
    .next ((frame_advance hsi 1 u).trans (frame_advance hdi 1 _))

theorem stays_movsBody16 (hsi : .word .si ∈ p.dests) (hdi : .word .di ∈ p.dests) (s : State) : Stays p s (movsBody16 s) :=
  (stays_memRead16 _ _ s).thenWith fun v t _ => (stays_memWrite16 _ _ v t).thenDo fun u _ =>
    .next ((frame_advance hsi 2 u).trans (frame_advance hdi 2 _))

theorem stays_cmpsBody8 (hsi : .word .si ∈ p.dests) (hdi : .word .di ∈ p.dests) (hf : statusFlags ⊆ p.flags) (s : State) :
    Stays p s (cmpsBody8 s) :=
  (stays_memRead8 _ _ s).thenWith fun a t _ => (stays_memRead8 _ _ t).thenWith fun b _ _ =>
    .next ((frame_mapFlags (bitsKept_subFlags a b false hf)).trans ((frame_advance hsi 1 _).trans (frame_advance hdi 1 _)))

theorem stays_cmpsBody16 (hsi : .word .si ∈ p.dests) (hdi : .word .di ∈ p.dests) (hf : statusFlags ⊆ p.flags) (s : State) :
    Stays p s (cmpsBody16 s) :=
  (stays_memRead16 _ _ s).thenWith fun a t _ => (stays_memRead16 _ _ t).thenWith fun b _ _ =>
    .next ((frame_mapFlags (bitsKept_subFlags a b false hf)).trans ((frame_advance hsi 2 _).trans (frame_advance hdi 2 _)))

theorem stays_scasBody8 (hdi : .word .di ∈ p.dests) (hf : statusFlags ⊆ p.flags) (s : State) : Stays p s (scasBody8 s) :=
  (stays_memRead8 _ _ s).thenWith fun b t _ =>
    .next ((frame_mapFlags (bitsKept_subFlags (t.reg8 .al) b false hf)).trans (frame_advance hdi 1 _))

theorem stays_scasBody16 (hdi : .word .di ∈ p.dests) (hf : statusFlags ⊆ p.flags) (s : State) : Stays p s (scasBody16 s) :=
  (stays_memRead16 _ _ s).thenWith fun b t _ =>
    .next ((frame_mapFlags (bitsKept_subFlags (t.reg .ax) b false hf)).trans (frame_advance hdi 2 _))

theorem stays_lodsBody8 (hsi : .word .si ∈ p.dests) (ha : .byte .al ∈ p.dests ∨ .word .ax ∈ p.dests) (s : State) :
    Stays p s (lodsBody8 s) :=
  (stays_memRead8 _ _ s).thenWith fun v t _ => .next ((frame_setReg8 (r := .al) ha t v).trans (frame_advance hsi 1 _))

theorem stays_lodsBody16 (hsi : .word .si ∈ p.dests) (ha : .word .ax ∈ p.dests) (s : State) : Stays p s (lodsBody16 s) :=
  (stays_memRead16 _ _ s).thenWith fun v t _ => .next ((frame_setReg ha t v).trans (frame_advance hsi 2 _))

theorem stays_stosBody8 (hdi : .word .di ∈ p.dests) (s : State) : Stays p s (stosBody8 s) :=
  (stays_memWrite8 _ _ _ s).thenDo fun t _ => .next (frame_advance hdi 1 t)

theorem stays_stosBody16 (hdi : .word .di ∈ p.dests) (s : State) : Stays p s (stosBody16 s) :=
  (stays_memWrite16 _ _ _ s).thenDo fun t _ => .next (frame_advance hdi 2 t)

section
variable (hcx : s.rep = true → .word .cx ∈ p.dests)
include hcx

theorem stays_execMovsb (hsi : .word .si ∈ p.dests) (hdi : .word .di ∈ p.dests) :
    Stays p s (execMovsb s) :=
  stays_stringOp hcx (stays_movsBody8 hsi hdi) (stays_movsBody8 (by decide) (by decide)) _

theorem stays_execMovsw (hsi : .word .si ∈ p.dests) (hdi : .word .di ∈ p.dests) :
    Stays p s (execMovsw s) :=
  stays_stringOp hcx (stays_movsBody16 hsi hdi) (stays_movsBody16 (by decide) (by decide)) _

theorem stays_execCmpsb (hsi : .word .si ∈ p.dests) (hdi : .word .di ∈ p.dests) (hf : statusFlags ⊆ p.flags) :
    Stays p s (execCmpsb s) :=
  stays_stringOp hcx (stays_cmpsBody8 hsi hdi hf) (stays_cmpsBody8 (by decide) (by decide) (by decide)) _

theorem stays_execCmpsw (hsi : .word .si ∈ p.dests) (hdi : .word .di ∈ p.dests) (hf : statusFlags ⊆ p.flags) :
    Stays p s (execCmpsw s) :=
  stays_stringOp hcx (stays_cmpsBody16 hsi hdi hf) (stays_cmpsBody16 (by decide) (by decide) (by decide)) _

theorem stays_execScasb (hdi : .word .di ∈ p.dests) (hf : statusFlags ⊆ p.flags) :
    Stays p s (execScasb s) :=
  stays_stringOp hcx (stays_scasBody8 hdi hf) (stays_scasBody8 (by decide) (by decide)) _

theorem stays_execScasw (hdi : .word .di ∈ p.dests) (hf : statusFlags ⊆ p.flags) :
    Stays p s (execScasw s) :=
  stays_stringOp hcx (stays_scasBody16 hdi hf) (stays_scasBody16 (by decide) (by decide)) _

theorem stays_execLodsb (hsi : .word .si ∈ p.dests) (ha : .byte .al ∈ p.dests) :
    Stays p s (execLodsb s) :=
  stays_stringOp hcx (stays_lodsBody8 hsi (.inl ha)) (stays_lodsBody8 (by decide) (.inr (by decide))) _

theorem stays_execLodsw (hsi : .word .si ∈ p.dests) (ha : .word .ax ∈ p.dests) :
    Stays p s (execLodsw s) :=
  stays_stringOp hcx (stays_lodsBody16 hsi ha) (stays_lodsBody16 (by decide) (by decide)) _

theorem stays_execStosb (hdi : .word .di ∈ p.dests) :
    Stays p s (execStosb s) :=
  stays_stringOp hcx (stays_stosBody8 hdi) (stays_stosBody8 (by decide)) _

theorem stays_execStosw (hdi : .word .di ∈ p.dests) :
    Stays p s (execStosw s) :=
  stays_stringOp hcx (stays_stosBody16 hdi) (stays_stosBody16 (by decide)) _

end

/-! ### System instructions and prefixes -/

theorem stays_execInto (h : s.flag .OF = true → p.Dispatches ∧ QuietAtInterrupt s) : Stays p s (execInto s) := by
  unfold execInto
  split
  · obtain ⟨hp, hi⟩ := h ‹_›
    exact stays_interrupt hp hi 4
  · exact .next (.refl p s)

theorem stays_execHlt (h : p.halts = true) (s : State) : Stays p s (execHlt s) := by
  intro hs
  rw [execHlt, haltCall_quiet hs]
  exact ⟨_, rfl, (frame_told s _).trans (frame_setRunState (.inr h) _ _)⟩

/-- The prefixes write the transient fields only (40_pipeline.md R203, R204, R207). -/
theorem frame_transient (h : p.prefixes = true) (s : State) (o : Option SReg) (rep repeatWhile last : Bool) :
    Frame p s { s with segOverride := o, rep := rep, repeatWhile := repeatWhile, lastPrefixRep := last } :=
  { Frame.refl p s with transient := fun hp => by simp [h] at hp }

end

end Sys2Proof.Machine
end

section
/-! SUPPORT. Every instruction stays within the footprint that `destsOf`, `flagsOf`, `segsOf` and `mayJump` give it (10_state.md R30-R52),
and the frames that follow. -/

namespace Sys2Proof.Machine

/-! ### The footprint of an instruction -/

/-- What an instruction run in `s` may write, as the definitions of Safety.lean say it. -/
def footprint (i : Instr) (s : State) : Footprint where
  dests := destsOf i s
  flags := flagsOf i s
  wholeFlags := writesFlagsWhole i
  segs := segsOf i s
  jumps := mayJump i s
  prefixes := isPrefix i
  dispatches := raises i s
  halts := i = .hlt

section
variable {i : Instr} {s : State}

/-- Where an instruction raises an interrupt, its footprint lists what the dispatch writes (60_exceptions.md R580). -/
theorem dispatches_footprint (hd : destsOf i s = [.word .sp]) (hf : [.TF, .IF] ⊆ flagsOf i s) (hs : segsOf i s = [.cs])
    (hj : mayJump i s = true) (hr : raises i s = true) : (footprint i s).Dispatches where
  sp := by
    show _ ∈ destsOf i s
    rw [hd]
    exact List.mem_cons_self
  trapFlag := hf (by decide)
  interruptFlag := hf (by decide)
  cs := by
    show _ ∈ segsOf i s
    rw [hs]
    exact List.mem_cons_self
  jumps := hj
  dispatches := hr

/-- The footprint of an instruction that divides: `dests` where it does not fault (42_arithmetic.md R322-R325; 43_bcd.md R364). -/
theorem divides_footprint {dests : List Dest} (hi : raises i s = true → QuietAtInterrupt s)
    (hd : destsOf i s = if divideFaults i s then [.word .sp] else dests)
    (hf : flagsOf i s = if divideFaults i s then statusFlags ++ [.TF, .IF] else statusFlags)
    (hs : segsOf i s = if divideFaults i s then [.cs] else []) (hj : mayJump i s = divideFaults i s)
    (hr : raises i s = divideFaults i s) : (footprint i s).Divides dests s (divideFaults i s) where
  flags := by
    show statusFlags ⊆ flagsOf i s
    rw [hf]
    split <;> decide
  trap := fun h => by
    rw [h] at hd hf hs hj hr
    exact ⟨dispatches_footprint hd (by rw [hf]; decide) hs hj hr, hi hr⟩
  result := fun h => by
    show dests ⊆ destsOf i s
    rw [hd, h]
    exact List.Subset.refl dests

theorem mem_allFlags (f : Flag) : f ∈ allFlags := by cases f <;> decide

/-- A repeated string instruction counts CX down (45_string.md R432). -/
theorem cx_mem_append_countDest {ds : List Dest} (h : s.rep = true) : .word .cx ∈ ds ++ countDest s := by simp [countDest, h]

end

/-! ### Every instruction -/

/-- Under the quiet host every instruction answers a next state and writes at most what its footprint lists; where it raises an interrupt,
the host must be quiet at that call too. `dsimp only [exec]` takes each case to that instruction's own meaning. -/
theorem stays_exec (i : Instr) (s : State) (hi : raises i s = true → QuietAtInterrupt s) : Stays (footprint i s) s (exec i s) := by
  cases i with dsimp only [exec]
  | addEbGb e | orEbGb e | adcEbGb e | sbbEbGb e | andEbGb e | subEbGb e | xorEbGb e
  | addEbIb e | orEbIb e | adcEbIb e | sbbEbIb e | andEbIb e | subEbIb e | xorEbIb e =>
    exact stays_aluRm8 (fun _ => List.Subset.refl e.dests) (List.Subset.refl statusFlags) _ s
  | addEvGv e | orEvGv e | adcEvGv e | sbbEvGv e | andEvGv e | subEvGv e | xorEvGv e
  | addEvIw e | orEvIw e | adcEvIw e | sbbEvIw e | andEvIw e | subEvIw e | xorEvIw e
  | addEvSib e | orEvSib e | adcEvSib e | sbbEvSib e | andEvSib e | subEvSib e | xorEvSib e =>
    exact stays_aluRm16 (fun _ => List.Subset.refl e.dests) (List.Subset.refl statusFlags) _ s
  | addGbEb g e | orGbEb g e | adcGbEb g e | sbbGbEb g e | andGbEb g e | subGbEb g e | xorGbEb g e =>
    exact stays_aluReg8 (fun _ => List.mem_cons_self) (List.Subset.refl statusFlags) e s
  | addGvEv g e | orGvEv g e | adcGvEv g e | sbbGvEv g e | andGvEv g e | subGvEv g e | xorGvEv g e =>
    exact stays_aluReg16 (fun _ => List.mem_cons_self) (List.Subset.refl statusFlags) e s
  | addAlIb imm | orAlIb imm | adcAlIb imm | sbbAlIb imm | andAlIb imm | subAlIb imm | xorAlIb imm =>
    exact stays_aluAcc8 (fun _ => List.mem_cons_self) (List.Subset.refl statusFlags) imm s
  | addAxIw imm | orAxIw imm | adcAxIw imm | sbbAxIw imm | andAxIw imm | subAxIw imm | xorAxIw imm =>
    exact stays_aluAcc16 (fun _ => List.mem_cons_self) (List.Subset.refl statusFlags) imm s
  | cmpEbGb | cmpEbIb => exact stays_aluRm8 (op := .cmp) nofun (List.Subset.refl statusFlags) _ s
  | cmpEvGv | cmpEvIw | cmpEvSib => exact stays_aluRm16 (op := .cmp) nofun (List.Subset.refl statusFlags) _ s
  | cmpGbEb g e => exact stays_aluReg8 (op := .cmp) nofun (List.Subset.refl statusFlags) e s
  | cmpGvEv g e => exact stays_aluReg16 (op := .cmp) nofun (List.Subset.refl statusFlags) e s
  | cmpAlIb imm => exact stays_aluAcc8 (op := .cmp) nofun (List.Subset.refl statusFlags) imm s
  | cmpAxIw imm => exact stays_aluAcc16 (op := .cmp) nofun (List.Subset.refl statusFlags) imm s
  | testEbGb | testEbIb => exact stays_aluRm8 (op := .test) nofun (List.Subset.refl statusFlags) _ s
  | testEvGv | testEvIw => exact stays_aluRm16 (op := .test) nofun (List.Subset.refl statusFlags) _ s
  | testAlIb imm => exact stays_aluAcc8 (op := .test) nofun (List.Subset.refl statusFlags) imm s
  | testAxIw imm => exact stays_aluAcc16 (op := .test) nofun (List.Subset.refl statusFlags) imm s
  | incEb e => exact stays_modifyRm8 (List.Subset.refl e.dests) fun v _ ht => frame_incValue rfl v ht
  | incEv e => exact stays_modifyRm16 (List.Subset.refl e.dests) fun v _ ht => frame_incValue rfl v ht
  | incR16 r => exact stays_modifyRm16 (List.Subset.refl (Rm16.reg r).dests) fun v _ ht => frame_incValue rfl v ht
  | decEb e => exact stays_modifyRm8 (List.Subset.refl e.dests) fun v _ ht => frame_decValue rfl v ht
  | decEv e => exact stays_modifyRm16 (List.Subset.refl e.dests) fun v _ ht => frame_decValue rfl v ht
  | decR16 r => exact stays_modifyRm16 (List.Subset.refl (Rm16.reg r).dests) fun v _ ht => frame_decValue rfl v ht
  | negEb e => exact stays_modifyRm8 (List.Subset.refl e.dests) fun v t _ => frame_negValue (List.Subset.refl statusFlags) v t
  | negEv e => exact stays_modifyRm16 (List.Subset.refl e.dests) fun v t _ => frame_negValue (List.Subset.refl statusFlags) v t
  | notEb e => exact stays_modifyRm8 (List.Subset.refl e.dests) fun _ t _ => .refl _ t
  | notEv e => exact stays_modifyRm16 (List.Subset.refl e.dests) fun _ t _ => .refl _ t
  | rolEb1 e | rorEb1 e | rclEb1 e | rcrEb1 e | shlEb1 e | shrEb1 e | sarEb1 e =>
    exact stays_shiftRm8 (List.Subset.refl e.dests) (fun _ => List.Subset.refl _) s
  | rolEv1 e | rorEv1 e | rclEv1 e | rcrEv1 e | shlEv1 e | shrEv1 e | sarEv1 e =>
    exact stays_shiftRm16 (List.Subset.refl e.dests) (fun _ => List.Subset.refl _) s
  | rolEbCl e | rorEbCl e | rclEbCl e | rcrEbCl e | shlEbCl e | shrEbCl e | sarEbCl e =>
    exact stays_shiftRm8 (List.Subset.refl e.dests) subset_of_clCount s
  | rolEvCl e | rorEvCl e | rclEvCl e | rcrEvCl e | shlEvCl e | shrEvCl e | sarEvCl e =>
    exact stays_shiftRm16 (List.Subset.refl e.dests) subset_of_clCount s
  | mulEb e | imulEb e =>
    exact (stays_readRm8 e s).thenWith fun _ t _ => .next (frame_setProduct8 List.mem_cons_self (List.Subset.refl statusFlags) _ _ t)
  | mulEv e | imulEv e =>
    exact (stays_readRm16 e s).thenWith fun _ t _ => .next (frame_setProduct16 List.mem_cons_self
      (List.mem_cons_of_mem _ List.mem_cons_self) (List.Subset.refl statusFlags) _ _ t)
  | divEb e => exact stays_execDivEb (divides_footprint hi rfl rfl rfl rfl rfl)
  | divEv e => exact stays_execDivEv (divides_footprint hi rfl rfl rfl rfl rfl)
  | idivEb e => exact stays_execIdivEb (divides_footprint hi rfl rfl rfl rfl rfl)
  | idivEv e => exact stays_execIdivEv (divides_footprint hi rfl rfl rfl rfl rfl)
  | aaa | aas => exact stays_asciiAdjust List.mem_cons_self (List.Subset.refl statusFlags) _ _ s
  | daa | das => exact stays_decimalAdjust List.mem_cons_self (List.Subset.refl statusFlags) _ s
  | aam base => exact stays_execAam (divides_footprint (i := .aam base) hi rfl rfl rfl rfl rfl)
  | aad base => exact stays_execAad List.mem_cons_self (List.Subset.refl statusFlags) base s
  | jo | jno | jb | jnb | je | jne | jbe | ja | js | jns | jp | jnp | jl | jge | jle | jg | jcxz => exact stays_jumpIf rfl _ _ s
  | loop | loope | loopne => exact stays_loop List.mem_cons_self rfl _ _ s
  | jmpRel8 | jmpRel16 => exact .next (frame_setIp rfl s _)
  | jmpAp off sg => exact .next ((frame_setIp rfl s off).trans (frame_setSReg List.mem_cons_self _ sg))
  | jmpEv e => exact (stays_readRm16 e s).thenWith fun v t _ => .next (frame_setIp rfl t v)
  | jmpMp m =>
    exact (stays_readFar m s).thenWith fun q t _ => .next ((frame_setIp rfl t q.1).trans (frame_setSReg List.mem_cons_self _ q.2))
  | callRel16 rel => exact stays_callNear List.mem_cons_self rfl _ _ s
  | callEv e => exact (stays_readRm16 e s).thenWith fun v t _ => stays_callNear List.mem_cons_self rfl _ (fun _ => v) t
  | callAp off sg => exact stays_callFar List.mem_cons_self List.mem_cons_self rfl off sg s
  | callMp m =>
    exact (stays_readFar m s).thenWith fun q t _ => stays_callFar List.mem_cons_self List.mem_cons_self rfl q.1 q.2 t
  | ret | retIw => exact stays_returnNear List.mem_cons_self rfl _ s
  | retf | retfIw => exact stays_returnFar List.mem_cons_self List.mem_cons_self rfl _ s
  | movEbGb e | movEbIb e => exact stays_writeRm8 (List.Subset.refl e.dests) _ s s
  | movEvGv e | movEvIw e | movEwSw e => exact stays_writeRm16 (List.Subset.refl e.dests) _ s s
  | movGbEb g e => exact (stays_readRm8 e s).thenWith fun v t _ => .next (frame_setReg8 (.inl List.mem_cons_self) t v)
  | movGvEv g e => exact (stays_readRm16 e s).thenWith fun v t _ => .next (frame_setReg List.mem_cons_self t v)
  | movR8Ib r => exact .next (frame_setReg8 (.inl List.mem_cons_self) s _)
  | movR16Iw r => exact .next (frame_setReg List.mem_cons_self s _)
  | movAlOb | xlat => exact stays_readByteTo List.mem_cons_self _ _ s
  | movAxOv => exact (stays_memRead16 _ _ s).thenWith fun v t _ => .next (frame_setReg List.mem_cons_self t v)
  | movObAl => exact stays_memWrite8 _ _ _ s
  | movOvAx => exact stays_memWrite16 _ _ _ s
  | movEsEw e | movSsEw e | movDsEw e => exact stays_loadSReg List.mem_cons_self e s
  | pushR16 | pushEs | pushCs | pushSs | pushDs | pushf => exact stays_push16 List.mem_cons_self _ s
  | pushEv e => exact stays_execPushEv List.mem_cons_self e s
  | popR16 r =>
    exact (stays_pop16 List.mem_cons_self s).thenWith fun v t _ => .next (frame_setReg (List.mem_cons_of_mem _ List.mem_cons_self) t v)
  | popEs | popSs | popDs => exact stays_popSReg List.mem_cons_self List.mem_cons_self s
  | popEv e =>
    exact (stays_pop16 List.mem_cons_self s).thenWith fun v t _ => stays_writeRm16 (List.subset_cons_self _ e.dests) v s t
  | popf => exact (stays_pop16 List.mem_cons_self s).thenWith fun v t _ => .next (frame_setFlags16 mem_allFlags rfl t v)
  | sahf => exact .next (frame_mapFlags (g := fun v => maskFlags ((v &&& 0xFF00) ||| zext16 (s.reg8 .ah))) (bitsKept_sahf _ _))
  | lahf => exact .next (frame_setReg8 (.inl List.mem_cons_self) s _)
  | xchgEbGb e g => exact stays_execXchgEbGb List.mem_cons_self (List.subset_cons_self _ e.dests) s
  | xchgEvGv e g => exact stays_execXchgEvGv List.mem_cons_self (List.subset_cons_self _ e.dests) s
  | xchgAxR16 r =>
    exact .next ((frame_setReg List.mem_cons_self s _).trans (frame_setReg (List.mem_cons_of_mem _ List.mem_cons_self) _ _))
  | leaGvM g => exact .next (frame_setReg List.mem_cons_self s _)
  | ldsGvMp g m | lesGvMp g m => exact stays_loadFar List.mem_cons_self List.mem_cons_self m s
  | cbw | cwd => exact .next (frame_setReg List.mem_cons_self s _)
  | inAlIb | inAlDx => exact stays_in8 List.mem_cons_self _ s
  | inAxIb | inAxDx => exact stays_in16 List.mem_cons_self _ s
  | outIbAl | outIbAx | outDxAl | outDxAx => exact stays_callHost rfl s
  | inv60 | inv8C | inv8D | inv8Ecs | inv8E | inv8F | invC4 | invC5 | invC6 | invC7 | invD0r6 | invD1r6 | invD2r6 | invD3r6
  | invF6r1 | invF7r1 | invFE | invFFr3 | invFFr5 | invFFr7 | inv0F | inv82 | invC0 | invC1 | invC8 | invC9 | invD6 | invF1 =>
    exact stays_callHost rfl s
  | segEs | segCs | segSs | segDs | repne | rep | lock => exact .next (frame_transient rfl s _ _ _ _)
  | movsb => exact stays_execMovsb cx_mem_append_countDest (List.mem_append_left _ (by decide)) (List.mem_append_left _ (by decide))
  | movsw => exact stays_execMovsw cx_mem_append_countDest (List.mem_append_left _ (by decide)) (List.mem_append_left _ (by decide))
  | cmpsb =>
    exact stays_execCmpsb cx_mem_append_countDest (List.mem_append_left _ (by decide)) (List.mem_append_left _ (by decide))
      (List.Subset.refl statusFlags)
  | cmpsw =>
    exact stays_execCmpsw cx_mem_append_countDest (List.mem_append_left _ (by decide)) (List.mem_append_left _ (by decide))
      (List.Subset.refl statusFlags)
  | scasb => exact stays_execScasb cx_mem_append_countDest List.mem_cons_self  (List.Subset.refl statusFlags)
  | scasw => exact stays_execScasw cx_mem_append_countDest List.mem_cons_self  (List.Subset.refl statusFlags)
  | lodsb => exact stays_execLodsb cx_mem_append_countDest List.mem_cons_self (List.mem_append_left _ (by decide))
  | lodsw => exact stays_execLodsw cx_mem_append_countDest List.mem_cons_self (List.mem_append_left _ (by decide))
  | stosb => exact stays_execStosb cx_mem_append_countDest List.mem_cons_self
  | stosw => exact stays_execStosw cx_mem_append_countDest List.mem_cons_self
  | intIb n => exact stays_interrupt (dispatches_footprint rfl (List.Subset.refl _) rfl rfl rfl) (hi rfl) n
  | int3 => exact stays_interrupt (dispatches_footprint rfl (List.Subset.refl _) rfl rfl rfl) (hi rfl) 3
  | into =>
    refine stays_execInto fun h => ⟨dispatches_footprint (if_pos h) ?_ (if_pos h) h h, hi h⟩
    rw [show flagsOf .into s = [.TF, .IF] from if_pos h]
    exact List.Subset.refl _
  | iret => exact stays_returnFromInterrupt List.mem_cons_self List.mem_cons_self rfl mem_allFlags rfl s
  | hlt => exact stays_execHlt rfl s
  | nop | wait | esc => exact .next (.refl _ s)
  | clc | stc | cmc => exact .next (frame_setFlag (f := .CF) List.mem_cons_self s _)
  | cld | std => exact .next (frame_setFlag (f := .DF) List.mem_cons_self s _)
  | cli | sti => exact .next (frame_setFlag (f := .IF) List.mem_cons_self s _)

theorem frame_exec {i : Instr} {s t : State} (hs : Quiet s) (hi : raises i s = true → QuietAtInterrupt s) (h : exec i s = .next t) :
    Frame (footprint i s) s t := by
  obtain ⟨u, hu, frame⟩ := stays_exec i s hi hs
  rw [hu] at h
  cases h
  exact frame

/-! ### The frames -/

/-- Settles O57: the registers the footprint of an instruction lists are those of `destsOf`. -/
theorem frameOfRegisters : Obligations.FrameOfRegisters := by
  unfold Obligations.FrameOfRegisters
  intro i s t hs hi h
  have frame := frame_exec hs hi h
  exact ⟨frame.reg, frame.reg8⟩

/-- Settles O58: no bit of FLAGS changes but those of the flags in `flagsOf`, and, where FLAGS is written as a whole, the reserved ones. -/
theorem frameOfFlags : Obligations.FrameOfFlags := by
  unfold Obligations.FrameOfFlags
  intro i s t hs hi h
  have frame := frame_exec hs hi h
  refine ⟨fun f hf => frame.flag hf, fun hw n hn => frame.bits n (fun f _ => hn f) fun whole => ?_⟩
  exact absurd (hw.symm.trans whole) (by decide)

/-- Settles O60: the segment registers, IP and the control fields change as the footprint of the instruction says. -/
theorem frameOfControl : Obligations.FrameOfControl := by
  unfold Obligations.FrameOfControl
  intro i s t hs hi h
  have frame := frame_exec hs hi h
  exact ⟨frame.sreg, frame.ip, frame.instructionCount, frame.singleStep, frame.atInterrupt, frame.ea, frame.stepBytes, frame.transient,
    fun hr => ⟨frame.raised hr, fun hh => frame.runState hr (decide_eq_false hh)⟩, frame.calls, frame.host, frame.draws⟩

end Sys2Proof.Machine
end

section
/-! SUPPORT. Memory (20_memory.md R80-R94): the linear address, reads after writes, and the report of a missing permission. -/

namespace Sys2Proof.Machine

/-- Settles O14: both sides are the sum modulo 0x100000 (`lin_toNat`), and the offset 0xFFFF + 1 is the offset 0. -/
theorem linearAddress : Obligations.LinearAddress := by
  unfold Obligations.LinearAddress
  refine ⟨fun seg off => ?_, by decide, by decide, fun seg => congrArg (lin seg) (by decide)⟩
  rw [lin_toNat, Nat.shiftLeft_eq]

/-- A byte reads as the value last stored to it (20_memory.md R84). -/
theorem State.peek_poke (s : State) (a b : Addr) (v : Byte) (h : Memory.wf s.mem = true) :
    (s.poke a v).peek b = if b = a then v else s.peek b := by
  split
  · subst b
    exact State.peek_poke_self s a v h
  · exact State.peek_poke_ne s v ‹_›

/-- Settles O15: a byte by `peek_poke`; a word store is two byte stores at different addresses (`lin_succ_ne`), so that each half is kept. -/
theorem memoryReadsLastWrite : Obligations.MemoryReadsLastWrite := by
  unfold Obligations.MemoryReadsLastWrite
  refine ⟨fun s a b v h => ⟨State.peek_poke s a b v h, State.memory_wf_poke s a v h⟩, fun s seg off v hs h => ?_⟩
  have readBack : memRead16 seg off (s.storeWord seg off v) = .next (v, (s.storeWord seg off v).checkedWord .read seg off) := by
    rw [memRead16_quiet seg off (quiet_storeWord seg off v hs), State.wordAt_storeWord_self s seg off v h]
  exact ⟨_, memWrite16_quiet seg off v hs, State.byteAt_storeWord_low s seg off v h, State.byteAt_storeWord_high s seg off v h,
    fun a hl hh => State.peek_storeWord_ne s seg off v fun hm => (List.mem_pair.1 hm).elim hl hh, ⟨_, readBack⟩,
    State.memory_wf_storeWord s seg off v h⟩

/-- A check reports exactly where the permission bit is clear (20_memory.md R88-R90). -/
theorem State.checked_eq (s : State) (k : Permission) (a : Addr) :
    s.checked k a = if s.permAt a &&& k.mask = 0 then s.told (.invalidMemoryAccess a k.mask) else s := by
  unfold State.checked State.allows
  by_cases h : s.permAt a &&& k.mask = 0 <;> simp [h]

theorem State.checked_missing (s : State) {k : Permission} {a : Addr} (h : s.permAt a &&& k.mask = 0) :
    s.checked k a = s.told (.invalidMemoryAccess a k.mask) := (s.checked_eq k a).trans (if_pos h)

/-- Settles O16: each accessor checks, which is `checked`, and then accesses; a report leaves the permissions, so that the second byte of a
word is checked against those of `s`. -/
theorem missingPermissionIsReported : Obligations.MissingPermissionIsReported := by
  unfold Obligations.MissingPermissionIsReported
  intro s a v hs
  refine ⟨?_, ?_, ?_, fun seg off hl hh => ?_⟩
  · rw [readByte_quiet a hs, State.checked_eq]
    rfl
  · rw [writeByte, checkAccess_quiet .write a hs, thenDo_next, State.checked_eq]
    rfl
  · rw [fetchByte_quiet a hs, State.checked_eq]
    rfl
  · rw [memRead16_quiet seg off hs, State.checkedWord, State.checked_missing (k := .read) s hl,
      State.checked_missing (k := .read) (s.told _) hh]
    rfl

end Sys2Proof.Machine
end

section
/-! SUPPORT. Frames of memory: which bytes an operation may store to, under the quiet host. `StoredOnly as s t` says that from `s` to `t` no
byte is stored to but those at `as`, and `Stores as s o` that every state `o` answers is such a state. One lemma for each shared operation;
a meaning composes them with `Stores.thenDo` and `StoresWith.thenWith`, for one list of addresses computed from the state at its start. -/

namespace Sys2Proof.Machine

/-- From `s` to `t` no byte of memory is stored to but those at `as`, no permission changes, and a quiet host stays quiet. -/
structure StoredOnly (as : List Addr) (s t : State) : Prop where
  peek : ∀ a, a ∉ as → t.peek a = s.peek a
  perm : t.perm = s.perm
  quiet : Quiet s → Quiet t

/-- Under the quiet host `o` stores to no byte but those at `as`. -/
def Stores (as : List Addr) (s : State) (o : Out) : Prop := Quiet s → ∀ t, o = .next t → StoredOnly as s t

/-- As `Stores`, for an operation that also gives a value. -/
def StoresWith {α : Type} (as : List Addr) (s : State) (o : Res α) : Prop := Quiet s → ∀ a t, o = .next (a, t) → StoredOnly as s t

section
variable {as bs : List Addr} {s t u : State} {o : Out}

/-- An update that leaves memory, the permissions and the host's script alone. -/
theorem StoredOnly.of_fields (hm : t.mem = s.mem) (hp : t.perm = s.perm) (hh : t.host = s.host) : StoredOnly as s t where
  peek a _ := congrArg (cellGet Config.unlistedByte a.toNat) hm
  perm := hp
  quiet := (quiet_of_host hh).2

theorem StoredOnly.refl : StoredOnly as s s := .of_fields rfl rfl rfl

theorem StoredOnly.trans (h : StoredOnly as s t) (k : StoredOnly as t u) : StoredOnly as s u where
  peek a ha := (k.peek a ha).trans (h.peek a ha)
  perm := k.perm.trans h.perm
  quiet hs := k.quiet (h.quiet hs)

theorem StoredOnly.mono (h : StoredOnly as s t) (hab : as ⊆ bs) : StoredOnly bs s t :=
  { h with peek := fun a ha => h.peek a fun hm => ha (hab hm) }

/-- Draws of flags store nothing (00_scope.md R16). -/
theorem storedOnly_freeFlags (s : State) (fs : List Flag) : StoredOnly as s (s.freeFlags fs) :=
  .of_fields (by rw [State.freeFlags_eq]) (by rw [State.freeFlags_eq]) (by rw [State.freeFlags_eq])

/-! ### Checks and stores -/

theorem storedOnly_told (s : State) (c : HostCall) : StoredOnly as s (s.told c) := ⟨fun _ _ => rfl, rfl, quiet_told c⟩

theorem storedOnly_checked (s : State) (k : Permission) (a : Addr) : StoredOnly as s (s.checked k a) :=
  ⟨fun b _ => State.peek_checked s k a b, State.checked_perm s k a, quiet_checked k a⟩

theorem storedOnly_checkedWord (s : State) (k : Permission) (seg off : Word) : StoredOnly as s (s.checkedWord k seg off) :=
  (storedOnly_checked s k _).trans (storedOnly_checked _ k _)

theorem storedOnly_checkedFar (s : State) (seg off : Word) : StoredOnly as s (s.checkedFar seg off) :=
  (storedOnly_checkedWord s _ seg off).trans (storedOnly_checkedWord _ _ seg (off + 2))

theorem storedOnly_storeByte {seg off : Word} (h : lin seg off ∈ as) (s : State) (v : Byte) : StoredOnly as s (s.storeByte seg off v) where
  peek _ ha := State.peek_storeByte_ne s seg off v fun e => ha (e ▸ h)
  perm := State.storeByte_perm s seg off v
  quiet := quiet_storeByte seg off v

theorem storedOnly_storeWord {seg off : Word} (h : wordAddrs seg off ⊆ as) (s : State) (v : Word) :
    StoredOnly as s (s.storeWord seg off v) where
  peek _ ha := State.peek_storeWord_ne s seg off v fun hm => ha (h hm)
  perm := State.storeWord_perm s seg off v
  quiet := quiet_storeWord seg off v

/-! ### The stack (41_data_transfer.md R250) -/

/-- The addresses of `n` pushes depend on SS and SP only. -/
theorem pushAddrs_congr (hss : t.sreg .ss = s.sreg .ss) (hsp : t.reg .sp = s.reg .sp) (n : Nat) : pushAddrs t n = pushAddrs s n := by
  induction n with
  | zero => rfl
  | succ n ih => rw [pushAddrs, pushAddrs, hss, hsp, ih]

theorem pushAddrs_freeFlags (s : State) (fs : List Flag) (n : Nat) : pushAddrs (s.freeFlags fs) n = pushAddrs s n := by
  rw [State.freeFlags_eq]
  apply pushAddrs_congr <;> rfl

theorem reg_pushed_sp (s : State) (v : Word) : (s.pushed v).reg .sp = s.reg .sp - 2 := by simp [State.pushed]

/-- The first of `n + 1` pushes stores below SP, and the others from the SP it leaves. -/
theorem mem_pushAddrs_succ (s : State) (v : Word) (n : Nat) (a : Addr) :
    a ∈ pushAddrs s (n + 1) ↔ a ∈ wordAddrs (s.sreg .ss) (s.reg .sp - 2) ∨ a ∈ pushAddrs (s.pushed v) n := by
  induction n with
  | zero => simp [pushAddrs]
  | succ n ih =>
    have deepest : s.reg .sp - 2 * BitVec.ofNat 16 (n + 1 + 1) = s.reg .sp - 2 - 2 * BitVec.ofNat 16 (n + 1) := by
      rw [BitVec.ofNat_add (n + 1) 1]
      bv_omega
    rw [pushAddrs, List.mem_append, ih, pushAddrs, List.mem_append, State.sreg_pushed, reg_pushed_sp, deepest]
    exact or_left_comm

/-- What follows a push stores to the slots below the SP the push leaves. -/
theorem StoredOnly.after_pushed {v : Word} {n : Nat} (h : StoredOnly (pushAddrs (s.pushed v) n) (s.pushed v) t) :
    StoredOnly (pushAddrs s (n + 1)) s t := by
  have slots := mem_pushAddrs_succ s v n
  have push : StoredOnly (pushAddrs s (n + 1)) s (s.pushed v) :=
    StoredOnly.trans (t := s.setReg .sp (s.reg .sp - 2)) (.of_fields rfl rfl rfl)
      (storedOnly_storeWord (fun a ha => (slots a).2 (.inl ha)) _ v)
  exact push.trans (h.mono fun a ha => (slots a).2 (.inr ha))

/-- A dispatch pushes three words (60_exceptions.md R580). -/
theorem storedOnly_dispatched (s : State) (n : Byte) : StoredOnly (pushAddrs s 3) s (s.dispatched n) := by
  refine StoredOnly.after_pushed (v := s.flags16) (.after_pushed (v := s.sreg .cs) (.after_pushed (v := s.ip) ?_))
  generalize hp : ((s.pushed s.flags16).pushed (s.sreg .cs)).pushed s.ip = p
  have vector : StoredOnly [] p (s.framed n) := by
    rw [State.framed, hp]
    exact StoredOnly.trans (t := (p.setFlag .TF false).setFlag .IF false) (.of_fields rfl rfl rfl) (storedOnly_checkedFar _ 0 _)
  have presented : StoredOnly [] (s.framed n) (s.presented n) := .of_fields rfl rfl rfl
  have called : StoredOnly [] (s.presented n) (s.dispatched n) :=
    (storedOnly_told _ (.interrupt n)).trans (.of_fields rfl rfl rfl)
  exact vector.trans (presented.trans called)

/-! ### Sequencing -/

theorem Stores.next (h : StoredOnly as s t) : Stores as s (.next t) := fun _ _ e => by
  cases e
  exact h

/-- A state that differs from `s` in no byte, no permission and no reply of the host. -/
theorem Stores.next_of_fields (hm : t.mem = s.mem) (hp : t.perm = s.perm) (hh : t.host = s.host) : Stores as s (.next t) :=
  .next (.of_fields hm hp hh)

theorem Stores.of_quiet (ho : Quiet s → o = .next t) (h : StoredOnly as s t) : Stores as s o := fun hs u e => by
  rw [ho hs] at e
  exact Stores.next h hs u e

theorem StoresWith.of_quiet {α : Type} {o : Res α} {a : α} (ho : Quiet s → o = .next (a, t)) (h : StoredOnly as s t) :
    StoresWith as s o := fun hs b u e => by
  rw [ho hs] at e
  cases e
  exact h

theorem Stores.of_storedOnly (h : StoredOnly as s t) (k : Stores as t o) : Stores as s o := fun hs u e =>
  h.trans (k (h.quiet hs) u e)

theorem Stores.thenDo {f : State → Out} (h : Stores as s o) (k : ∀ t, Stores as t (f t)) : Stores as s (thenDo o f) := fun hs u e => by
  obtain ⟨t, ht, hu⟩ := thenDo_eq_next e
  exact Stores.of_storedOnly (h hs t ht) (k t) hs u hu

theorem StoresWith.thenWith {α : Type} {o : Res α} {f : α → State → Out} (h : StoresWith as s o) (k : ∀ a t, Stores as t (f a t)) :
    Stores as s (thenWith o f) := fun hs u e => by
  obtain ⟨a, t, ht, hu⟩ := thenWith_eq_next e
  exact Stores.of_storedOnly (h hs a t ht) (k a t) hs u hu

/-! ### Calls, accesses and the stack -/

theorem stores_callHost {c : HostCall} (hc : c.isInterrupt = false) (s : State) : Stores as s (callHost c s) :=
  .of_quiet (fun hs => callHost_quiet c hs hc) (storedOnly_told s c)

theorem storesWith_portRead {c : HostCall} (hc : c.isInterrupt = false) (s : State) : StoresWith as s (portRead c s) := by
  intro hs v t e
  rw [portRead_quiet c hs hc] at e
  have told := storedOnly_told (as := as) s c
  cases ha : s.host.head?.bind HostReply.answer <;> rw [ha] at e <;> cases e
  · exact told.trans (.of_fields rfl rfl rfl)
  · exact told

theorem storesWith_memRead8 (seg off : Word) (s : State) : StoresWith as s (memRead8 seg off s) :=
  .of_quiet (memRead8_quiet seg off) (storedOnly_checked s _ _)

theorem storesWith_memRead16 (seg off : Word) (s : State) : StoresWith as s (memRead16 seg off s) :=
  .of_quiet (memRead16_quiet seg off) (storedOnly_checkedWord s _ _ _)

theorem stores_memWrite8 {seg off : Word} (h : lin seg off ∈ as) (v : Byte) (s : State) : Stores as s (memWrite8 seg off v s) :=
  .of_quiet (memWrite8_quiet seg off v) (storedOnly_storeByte h s v)

theorem stores_memWrite16 {seg off : Word} (h : wordAddrs seg off ⊆ as) (v : Word) (s : State) : Stores as s (memWrite16 seg off v s) :=
  .of_quiet (memWrite16_quiet seg off v) (storedOnly_storeWord h s v)

theorem stores_push16 (v : Word) (s : State) : Stores (pushAddrs s 1) s (push16 v s) := .of_quiet (push16_quiet v) (.after_pushed .refl)

theorem stores_pushThen {v : Word} {n : Nat} {f : State → Out} (k : Stores (pushAddrs (s.pushed v) n) (s.pushed v) (f (s.pushed v))) :
    Stores (pushAddrs s (n + 1)) s (thenDo (push16 v s) f) := fun hs u e => by
  rw [push16_quiet v hs, thenDo_next] at e
  exact (k (quiet_pushed v hs) u e).after_pushed

theorem storesWith_pop16 (s : State) : StoresWith as s (pop16 s) :=
  .of_quiet pop16_quiet ((storedOnly_checkedWord s _ _ _).trans (.of_fields rfl rfl rfl))

theorem stores_interrupt (hi : QuietAtInterrupt s) (n : Byte) : Stores (pushAddrs s 3) s (interrupt n s) :=
  .of_quiet (fun hs => interrupt_quiet n hs hi) (storedOnly_dispatched s n)

theorem stores_divideFault (hi : QuietAtInterrupt s) : Stores (pushAddrs s 3) s (divideFault s) := by
  rw [← pushAddrs_freeFlags s statusFlags]
  exact Stores.of_storedOnly (storedOnly_freeFlags s statusFlags)
    (stores_interrupt (quietAtInterrupt_of (by rw [State.freeFlags_eq]) hi) 0)

theorem stores_returnFromInterrupt (s : State) : Stores as s (returnFromInterrupt s) :=
  (storesWith_pop16 s).thenWith fun v t => Stores.of_storedOnly (t := t.setIp v) (.of_fields rfl rfl rfl)
    ((storesWith_pop16 _).thenWith fun v t => Stores.of_storedOnly (t := t.setSReg .cs v) (.of_fields rfl rfl rfl)
      ((storesWith_pop16 _).thenWith fun v t => .next_of_fields (t := t.setFlags16 v) rfl rfl rfl))

/-! ### Operands -/

theorem storedOnly_seen8 (e : Rm8) (s : State) : StoredOnly as s (e.seen s) := by
  cases e with
  | reg r => exact .refl
  | mem m => exact storedOnly_checked s _ _

theorem storedOnly_seen16 (e : Rm16) (s : State) : StoredOnly as s (e.seen s) := by
  cases e with
  | reg r => exact .refl
  | mem m => exact storedOnly_checkedWord s _ _ _

theorem storesWith_readRm8 (e : Rm8) (s : State) : StoresWith as s (readRm8 e s) := .of_quiet (readRm8_quiet e) (storedOnly_seen8 e s)

theorem storesWith_readRm16 (e : Rm16) (s : State) : StoresWith as s (readRm16 e s) := .of_quiet (readRm16_quiet e) (storedOnly_seen16 e s)

theorem storesWith_readFar (m : MemOp) (s : State) : StoresWith as s (readFar m s) :=
  .of_quiet (readFar_quiet m) (storedOnly_checkedFar s _ _)

/-- An operation that reads E first, with the value E has (40_pipeline.md R211). -/
theorem stores_thenReadRm8 {e : Rm8} {f : Byte → State → Out} (k : Stores as (e.seen s) (f (e.value s) (e.seen s))) :
    Stores as s (thenWith (readRm8 e s) f) := fun hs u h => by
  rw [readRm8_quiet e hs, thenWith_next] at h
  exact Stores.of_storedOnly (storedOnly_seen8 e s) k hs u h

theorem stores_thenReadRm16 {e : Rm16} {f : Word → State → Out} (k : Stores as (e.seen s) (f (e.value s) (e.seen s))) :
    Stores as s (thenWith (readRm16 e s) f) := fun hs u h => by
  rw [readRm16_quiet e hs, thenWith_next] at h
  exact Stores.of_storedOnly (storedOnly_seen16 e s) k hs u h

theorem stores_thenReadFar {m : MemOp} {f : Word × Word → State → Out}
    (k : Stores as (m.farSeen s) (f (m.farOffset s, m.farSegment s) (m.farSeen s))) : Stores as s (thenWith (readFar m s) f) := fun hs u h => by
  rw [readFar_quiet m hs, thenWith_next] at h
  exact Stores.of_storedOnly (storedOnly_checkedFar s _ _) k hs u h

/-- A write of E stores to the place E named in `s` (40_pipeline.md R211). -/
theorem stores_writeRm8 {e : Rm8} (h : e.addrs s ⊆ as) (v : Byte) (t : State) : Stores as t (writeLoc8 (locate8 e s) v t) := by
  cases e with
  | reg r => exact .next_of_fields rfl rfl rfl
  | mem m => exact stores_memWrite8 (h List.mem_cons_self) v t

theorem stores_writeRm16 {e : Rm16} (h : e.addrs s ⊆ as) (v : Word) (t : State) : Stores as t (writeLoc16 (locate16 e s) v t) := by
  cases e with
  | reg r => exact .next_of_fields rfl rfl rfl
  | mem m => exact stores_memWrite16 h v t

theorem stores_modifyRm8 (e : Rm8) {f : Byte → State → Byte × State} (hf : ∀ v t, StoredOnly (e.addrs s) t (f v t).2) :
    Stores (e.addrs s) s (modifyRm8 e f s) :=
  (storesWith_readRm8 e s).thenWith fun v t => Stores.of_storedOnly (hf v t) (stores_writeRm8 (List.Subset.refl _) _ _)

theorem stores_modifyRm16 (e : Rm16) {f : Word → State → Word × State} (hf : ∀ v t, StoredOnly (e.addrs s) t (f v t).2) :
    Stores (e.addrs s) s (modifyRm16 e f s) :=
  (storesWith_readRm16 e s).thenWith fun v t => Stores.of_storedOnly (hf v t) (stores_writeRm16 (List.Subset.refl _) _ _)

end

end Sys2Proof.Machine
end

section
/-! SUPPORT. What the instructions of each family store to, under the quiet host: one lemma for each shared form. -/

namespace Sys2Proof.Machine

section
variable {as : List Addr} {s : State}

/-! ### Values and flags: nothing is stored -/

theorem storedOnly_aluApply {w : Nat} (op : AluOp) (a b : BitVec w) (t : State) : StoredOnly as t (aluApply op a b t).2 := by
  cases op with
  | add | adc | sub | sbb | cmp | and | or | xor | test => exact .of_fields rfl rfl rfl

theorem storedOnly_shiftValue {w : Nat} (op : ShiftOp) (n : Nat) (v : BitVec w) (t : State) : StoredOnly as t (shiftValue op n v t).2 := by
  unfold shiftValue
  split
  · exact .refl
  · dsimp only
    split <;> exact .of_fields rfl rfl rfl

theorem storedOnly_afterNegate (t : State) : StoredOnly as t (afterNegate t) := by
  unfold afterNegate
  split <;> exact .of_fields rfl rfl rfl

/-! ### The two-operand instructions (42_arithmetic.md R304) -/

theorem stores_aluRm8 {op : AluOp} {e : Rm8} (h : op.writes = true → e.addrs s ⊆ as) (src : State → Byte) :
    Stores as s (aluRm8 op e src s) := by
  refine (storesWith_readRm8 e s).thenWith fun a t => ?_
  have flags := storedOnly_aluApply (as := as) op a (src t) t
  dsimp only
  split
  · exact Stores.of_storedOnly flags (stores_writeRm8 (h ‹_›) _ _)
  · exact .next flags

theorem stores_aluRm16 {op : AluOp} {e : Rm16} (h : op.writes = true → e.addrs s ⊆ as) (src : State → Word) :
    Stores as s (aluRm16 op e src s) := by
  refine (storesWith_readRm16 e s).thenWith fun a t => ?_
  have flags := storedOnly_aluApply (as := as) op a (src t) t
  dsimp only
  split
  · exact Stores.of_storedOnly flags (stores_writeRm16 (h ‹_›) _ _)
  · exact .next flags

theorem stores_aluReg8 (op : AluOp) (g : Reg8) (e : Rm8) : Stores as s (aluReg8 op g e s) := by
  refine (storesWith_readRm8 e s).thenWith fun b t => .next ((storedOnly_aluApply op (s.reg8 g) b t).trans ?_)
  split <;> exact .of_fields rfl rfl rfl

theorem stores_aluReg16 (op : AluOp) (g : Reg16) (e : Rm16) : Stores as s (aluReg16 op g e s) := by
  refine (storesWith_readRm16 e s).thenWith fun b t => .next ((storedOnly_aluApply op (s.reg g) b t).trans ?_)
  split <;> exact .of_fields rfl rfl rfl

theorem stores_aluAcc8 (op : AluOp) (imm : Byte) : Stores as s (aluAcc8 op imm s) := by
  refine .next ((storedOnly_aluApply op (s.reg8 .al) imm s).trans ?_)
  split <;> exact .of_fields rfl rfl rfl

theorem stores_aluAcc16 (op : AluOp) (imm : Word) : Stores as s (aluAcc16 op imm s) := by
  refine .next ((storedOnly_aluApply op (s.reg .ax) imm s).trans ?_)
  split <;> exact .of_fields rfl rfl rfl

/-! ### Multiplication and decimal adjustment -/

theorem storedOnly_mulFlags (high : Bool) (t : State) : StoredOnly as t (mulFlags high t) :=
  StoredOnly.trans (t := (t.setFlag .CF high).setFlag .OF high) (.of_fields rfl rfl rfl) (storedOnly_freeFlags _ _)

theorem stores_setProduct8 (p : Word) (high : Bool) (t : State) : Stores as t (.next (setProduct8 p high t)) :=
  .next (StoredOnly.trans (t := t.setReg .ax p) (.of_fields rfl rfl rfl) (storedOnly_mulFlags high _))

theorem stores_setProduct16 (p : DWord) (high : Bool) (t : State) : Stores as t (.next (setProduct16 p high t)) :=
  .next (StoredOnly.trans (t := (t.setReg .dx (p.extractLsb' 16 16)).setReg .ax (p.setWidth 16)) (.of_fields rfl rfl rfl)
    (storedOnly_mulFlags high _))

theorem stores_asciiAdjust (al6 ah1 : Byte → Byte) (s : State) : Stores as s (asciiAdjust al6 ah1 s) := by
  refine .next (StoredOnly.trans ?_ (storedOnly_freeFlags _ _))
  exact .of_fields rfl rfl rfl

theorem stores_decimalAdjust (move : Byte → Byte → Byte) (s : State) : Stores as s (decimalAdjust move s) := by
  have band : StoredOnly as s (if drawBand (s.reg8 .al) (s.flag .AF) (s.flag .CF) then s.drawn else s) := by
    split <;> exact .of_fields rfl rfl rfl
  refine .next (band.trans (StoredOnly.trans ?_ (storedOnly_freeFlags _ _)))
  exact .of_fields rfl rfl rfl

theorem stores_execAad (base : Byte) (s : State) : Stores as s (execAad base s) := by
  refine .next (StoredOnly.trans ?_ (storedOnly_freeFlags _ _))
  exact .of_fields rfl rfl rfl

/-! ### Division (42_arithmetic.md R322-R325; 43_bcd.md R364) -/

/-- The bytes an instruction that divides stores to: the frame of the trap where it faults. -/
def trapAddrs (faults : Bool) (s : State) : List Addr := if faults then pushAddrs s 3 else []

/-- The fault comes once the operand has been read, which leaves SS and SP as they were. -/
theorem stores_faulting {faults : Bool} {t : State} (hf : faults = true) (hi : faults = true → QuietAtInterrupt s)
    (hss : t.sreg .ss = s.sreg .ss) (hsp : t.reg .sp = s.reg .sp) (ha : t.atInterrupt = s.atInterrupt) :
    Stores (trapAddrs faults s) t (divideFault t) := by
  rw [trapAddrs, if_pos hf, ← pushAddrs_congr hss hsp 3]
  exact stores_divideFault (quietAtInterrupt_of ha (hi hf))

theorem stores_execDivEb {e : Rm8} (hi : divideFaults (.divEb e) s = true → QuietAtInterrupt s) :
    Stores (trapAddrs (divideFaults (.divEb e) s) s) s (execDivEb e s) := by
  unfold execDivEb
  refine stores_thenReadRm8 ?_
  rw [Rm8.reg_seen]
  cases ho : divideUnsigned (s.reg .ax).toNat (e.value s).toNat 0xFF with
  | none => exact stores_faulting (by simp [divideFaults, ho]) hi (e.sreg_seen s _) (e.reg_seen s _) (e.seen_atInterrupt s)
  | some qr => exact .next_of_fields rfl rfl rfl

theorem stores_execDivEv {e : Rm16} (hi : divideFaults (.divEv e) s = true → QuietAtInterrupt s) :
    Stores (trapAddrs (divideFaults (.divEv e) s) s) s (execDivEv e s) := by
  unfold execDivEv
  refine stores_thenReadRm16 ?_
  rw [dxAx_seen16]
  cases ho : divideUnsigned (dxAx s).toNat (e.value s).toNat 0xFFFF with
  | none => exact stores_faulting (by simp [divideFaults, ho]) hi (e.sreg_seen s _) (e.reg_seen s _) (e.seen_atInterrupt s)
  | some qr => exact .next_of_fields rfl rfl rfl

theorem stores_execIdivEb {e : Rm8} (hi : divideFaults (.idivEb e) s = true → QuietAtInterrupt s) :
    Stores (trapAddrs (divideFaults (.idivEb e) s) s) s (execIdivEb e s) := by
  unfold execIdivEb
  refine stores_thenReadRm8 ?_
  cases ho : divideSigned (s.reg .ax).toInt (e.value s).toInt 127 with
  | none => exact stores_faulting (by simp [divideFaults, ho]) hi (e.sreg_seen s _) (e.reg_seen s _) (e.seen_atInterrupt s)
  | some qr => exact .next ((storedOnly_afterNegate _).trans (.of_fields rfl rfl rfl))

theorem stores_execIdivEv {e : Rm16} (hi : divideFaults (.idivEv e) s = true → QuietAtInterrupt s) :
    Stores (trapAddrs (divideFaults (.idivEv e) s) s) s (execIdivEv e s) := by
  unfold execIdivEv
  refine stores_thenReadRm16 ?_
  cases ho : divideSigned (dxAx s).toInt (e.value s).toInt 32767 with
  | none => exact stores_faulting (by simp [divideFaults, ho]) hi (e.sreg_seen s _) (e.reg_seen s _) (e.seen_atInterrupt s)
  | some qr => exact .next ((storedOnly_afterNegate _).trans (.of_fields rfl rfl rfl))

theorem stores_execAam {base : Byte} (hi : (base == 0) = true → QuietAtInterrupt s) :
    Stores (trapAddrs (base == 0) s) s (execAam base s) := by
  unfold execAam
  split
  · exact stores_faulting (by simpa) hi rfl rfl rfl
  · refine .next (StoredOnly.trans ?_ (storedOnly_freeFlags _ _))
    exact .of_fields rfl rfl rfl

/-! ### Control transfer -/

theorem stores_jumpIf (cond : Bool) (rel : Byte) (s : State) : Stores as s (jumpIf cond rel s) := by
  unfold jumpIf
  split <;> exact .next_of_fields rfl rfl rfl

theorem stores_loop (cond : Bool) (rel : Byte) (s : State) : Stores as s (jumpIf cond rel (countDown s)) :=
  Stores.of_storedOnly (t := countDown s) (.of_fields rfl rfl rfl) (stores_jumpIf cond rel _)

theorem stores_callNear (ret : Word) (target : State → Word) (s : State) :
    Stores (pushAddrs s 1) s (thenDo (push16 ret s) fun t => .next (t.setIp (target t))) := stores_pushThen (.next_of_fields rfl rfl rfl)

theorem stores_callFar (off sg : Word) (s : State) : Stores (pushAddrs s 2) s (callFar off sg s) :=
  stores_pushThen (stores_pushThen (.next_of_fields rfl rfl rfl))

theorem stores_execCallEv (e : Rm16) (s : State) : Stores (pushAddrs s 1) s (execCallEv e s) := by
  refine stores_thenReadRm16 ?_
  rw [← pushAddrs_congr (e.sreg_seen s _) (e.reg_seen s _)]
  exact stores_callNear _ (fun _ => e.value s) (e.seen s)

theorem stores_execCallMp (m : MemOp) (s : State) : Stores (pushAddrs s 2) s (execCallMp m s) := by
  refine stores_thenReadFar ?_
  rw [← pushAddrs_congr (m.sreg_farSeen s _) (m.reg_farSeen s _)]
  exact stores_callFar _ _ (m.farSeen s)

theorem stores_returnNear (n : Word) (s : State) : Stores as s (returnNear n s) :=
  (storesWith_pop16 s).thenWith fun _ _ => .next_of_fields rfl rfl rfl

theorem stores_returnFar (n : Word) (s : State) : Stores as s (returnFar n s) :=
  (storesWith_pop16 s).thenWith fun v t => Stores.of_storedOnly (t := t.setIp v) (.of_fields rfl rfl rfl)
    ((storesWith_pop16 _).thenWith fun _ _ => .next_of_fields rfl rfl rfl)

/-! ### Data transfer -/

theorem stores_loadSReg (r : SReg) (e : Rm16) (s : State) : Stores as s (loadSReg r e s) :=
  (storesWith_readRm16 e s).thenWith fun _ _ => .next_of_fields rfl rfl rfl

theorem stores_popSReg (r : SReg) (s : State) : Stores as s (popSReg r s) :=
  (storesWith_pop16 s).thenWith fun _ _ => .next_of_fields rfl rfl rfl

theorem stores_loadFar (r : SReg) (g : Reg16) (m : MemOp) (s : State) : Stores as s (loadFar r g m s) :=
  (storesWith_readFar m s).thenWith fun _ _ => .next_of_fields rfl rfl rfl

theorem stores_execPushEv (e : Rm16) (s : State) : Stores (pushAddrs s 1) s (execPushEv e s) := by
  unfold execPushEv
  split
  · exact Stores.of_storedOnly (t := s.drawn) (.of_fields rfl rfl rfl) (stores_push16 _ s.drawn)
  · refine stores_thenReadRm16 ?_
    rw [← pushAddrs_congr (e.sreg_seen s _) (e.reg_seen s _)]
    exact stores_push16 _ (e.seen s)

theorem stores_execXchgEbGb (e : Rm8) (g : Reg8) (s : State) : Stores (e.addrs s) s (execXchgEbGb e g s) :=
  (storesWith_readRm8 e s).thenWith fun _ t =>
    (stores_writeRm8 (List.Subset.refl _) (t.reg8 g) t).thenDo fun _ => .next_of_fields rfl rfl rfl

theorem stores_execXchgEvGv (e : Rm16) (g : Reg16) (s : State) : Stores (e.addrs s) s (execXchgEvGv e g s) :=
  (storesWith_readRm16 e s).thenWith fun _ t =>
    (stores_writeRm16 (List.Subset.refl _) (t.reg g) t).thenDo fun _ => .next_of_fields rfl rfl rfl

theorem stores_readByteTo (r : Reg8) (seg off : Word) (s : State) :
    Stores as s (thenWith (memRead8 seg off s) fun v t => .next (t.setReg8 r v)) :=
  (storesWith_memRead8 seg off s).thenWith fun _ _ => .next_of_fields rfl rfl rfl

theorem stores_in8 (port : Word) (s : State) : Stores as s (in8 port s) :=
  (storesWith_portRead rfl s).thenWith fun _ _ => .next_of_fields rfl rfl rfl

theorem stores_in16 (port : Word) (s : State) : Stores as s (in16 port s) :=
  (storesWith_portRead rfl s).thenWith fun _ _ => .next_of_fields rfl rfl rfl

theorem stores_execHlt (s : State) : Stores as s (execHlt s) :=
  .of_quiet (t := (s.told .halt).setRunState .halted) (fun hs => by rw [execHlt, haltCall_quiet hs])
    ((storedOnly_told s .halt).trans (.of_fields rfl rfl rfl))

theorem stores_execInto (hi : s.flag .OF = true → QuietAtInterrupt s) :
    Stores (if s.flag .OF then pushAddrs s 3 else []) s (execInto s) := by
  unfold execInto
  split
  · exact stores_interrupt (hi ‹_›) 4
  · exact .next .refl

/-! ### The string instructions that store nothing (45_string.md R441-R443) -/

theorem stores_repeatLoop {body : State → Out} (hb : ∀ t, Stores as t (body t)) (testsZf : Bool) (bound : Nat) (s : State) :
    Stores as s (repeatLoop body testsZf bound s) := by
  induction bound generalizing s with
  | zero =>
    unfold repeatLoop
    split
    · exact .next .refl
    · exact fun _ _ e => nomatch e
  | succ n ih =>
    unfold repeatLoop
    split
    · exact .next .refl
    · refine (hb s).thenDo fun t => Stores.of_storedOnly (t := t.setReg .cx (t.reg .cx - 1)) (.of_fields rfl rfl rfl) ?_
      dsimp only
      split
      · exact .next .refl
      · exact ih _

theorem stores_stringOp {body : State → Out} (hb : ∀ t, Stores as t (body t)) (testsZf : Bool) (s : State) :
    Stores as s (stringOp body testsZf s) := by
  unfold stringOp
  split
  · exact stores_repeatLoop hb testsZf _ s
  · exact hb s

theorem stores_cmpsBody8 (s : State) : Stores as s (cmpsBody8 s) :=
  (storesWith_memRead8 _ _ s).thenWith fun _ t => (storesWith_memRead8 _ _ t).thenWith fun _ _ => .next_of_fields rfl rfl rfl

theorem stores_cmpsBody16 (s : State) : Stores as s (cmpsBody16 s) :=
  (storesWith_memRead16 _ _ s).thenWith fun _ t => (storesWith_memRead16 _ _ t).thenWith fun _ _ => .next_of_fields rfl rfl rfl

theorem stores_scasBody8 (s : State) : Stores as s (scasBody8 s) :=
  (storesWith_memRead8 _ _ s).thenWith fun _ _ => .next_of_fields rfl rfl rfl

theorem stores_scasBody16 (s : State) : Stores as s (scasBody16 s) :=
  (storesWith_memRead16 _ _ s).thenWith fun _ _ => .next_of_fields rfl rfl rfl

theorem stores_lodsBody8 (s : State) : Stores as s (lodsBody8 s) :=
  (storesWith_memRead8 _ _ s).thenWith fun _ _ => .next_of_fields rfl rfl rfl

theorem stores_lodsBody16 (s : State) : Stores as s (lodsBody16 s) :=
  (storesWith_memRead16 _ _ s).thenWith fun _ _ => .next_of_fields rfl rfl rfl

end

/-! ### The string instructions that store an element (45_string.md R440, R444) -/

/-- The address of the byte at `seg:off`, as a list like `wordAddrs`. -/
def byteAddrs (seg off : Word) : List Addr := [lin seg off]

/-- The addresses of the first `n` elements of a string at ES:DI, each of `w` bytes at the addresses `place` gives (45_string.md R431). -/
def elementAddrs (place : Word → Word → List Addr) (w : Word) (s : State) (n : Nat) : List Addr :=
  (List.range n).flatMap fun k => place (s.sreg .es) (elementOffset s w k)

/-- The round `f` stores to the element at ES:DI only, moves DI past it, and leaves the loop's own registers alone. -/
structure StoresElement (place : Word → Word → List Addr) (w : Word) (f : State → State) : Prop where
  stored : ∀ s, StoredOnly (place (s.sreg .es) (s.reg .di)) s (f s)
  es : ∀ s, (f s).sreg .es = s.sreg .es
  df : ∀ s, (f s).flag .DF = s.flag .DF
  di : ∀ s, (f s).reg .di = stepIndex s (s.reg .di) w
  cx : ∀ s, (f s).reg .cx = s.reg .cx

section
variable {place : Word → Word → List Addr} {w : Word} {f : State → State}

theorem elementOffset_zero (s : State) (w : Word) : elementOffset s w 0 = s.reg .di := by simp [elementOffset]

/-- After a round, element `k` is the one that was element `k + 1`. -/
theorem StoresElement.elementOffset (h : StoresElement place w f) (s : State) (k : Nat) :
    elementOffset (countDown (f s)) w k = elementOffset s w (k + 1) := by
  have df : (countDown (f s)).flag .DF = s.flag .DF := h.df s
  have di : (countDown (f s)).reg .di = stepIndex s (s.reg .di) w := by simp [countDown, h.di s]
  have past : w * BitVec.ofNat 16 (k + 1) = w + w * BitVec.ofNat 16 k := by
    rw [BitVec.ofNat_add, BitVec.mul_add, BitVec.mul_one, BitVec.add_comm]
  rw [Machine.elementOffset, Machine.elementOffset, df, di, stepIndex, past]
  split
  · rw [sub_add_eq_sub_sub]
  · rw [BitVec.add_assoc]

theorem StoresElement.elementAddrs_succ (h : StoresElement place w f) (s : State) (n : Nat) :
    elementAddrs place w s (n + 1) = place (s.sreg .es) (s.reg .di) ++ elementAddrs place w (countDown (f s)) n := by
  have es : (countDown (f s)).sreg .es = s.sreg .es := h.es s
  simp only [elementAddrs, List.range_succ_eq_map, List.flatMap_cons, List.flatMap_map, elementOffset_zero, h.elementOffset, es]

/-- `n` rounds store to the first `n` elements. -/
theorem StoresElement.rounds (h : StoresElement place w f) (n : Nat) (s : State) : StoredOnly (elementAddrs place w s n) s (rounds f n s) := by
  induction n generalizing s with
  | zero => exact .refl
  | succ n ih =>
    rw [h.elementAddrs_succ]
    have counted : StoredOnly [] (f s) (countDown (f s)) := .of_fields rfl rfl rfl
    exact ((h.stored s).mono (List.subset_append_left ..)).trans
      ((counted.mono (List.nil_subset _)).trans ((ih _).mono (List.subset_append_right ..)))

/-- A string instruction that stores an element in each round and does not test ZF (45_string.md R432, R433). -/
theorem StoresElement.stringOp (h : StoresElement place w f) {body : State → Out} (hb : ∀ t, Quiet t → body t = .next (f t)) (s : State) :
    Stores (elementAddrs place w s (stringCount s)) s (stringOp body false s) := by
  unfold Machine.stringOp stringCount
  split
  · have count := (s.reg .cx).isLt
    exact .of_quiet (fun hs => repeatLoop_transfer hb (fun t => (h.stored t).quiet) h.cx _ _ s hs rfl (by omega)) (h.rounds _ s)
  · rw [h.elementAddrs_succ]
    exact .of_quiet (hb s) ((h.stored s).mono (List.subset_append_left ..))

theorem StoresElement.byteString (h : StoresElement byteAddrs 1 f) {body : State → Out}
    (hb : ∀ t, Quiet t → body t = .next (f t)) (s : State) : Stores (stringAddrs8 s) s (Machine.stringOp body false s) := by
  have addrs : stringAddrs8 s = elementAddrs byteAddrs 1 s (stringCount s) := List.map_eq_flatMap
  rw [addrs]
  exact h.stringOp hb s

theorem StoresElement.wordString (h : StoresElement wordAddrs 2 f) {body : State → Out}
    (hb : ∀ t, Quiet t → body t = .next (f t)) (s : State) : Stores (stringAddrs16 s) s (Machine.stringOp body false s) := h.stringOp hb s

end

theorem storesElement_moved8 : StoresElement byteAddrs 1 moved8 where
  stored s := (storedOnly_checked s _ _).trans ((storedOnly_storeByte List.mem_cons_self _ _).trans (.of_fields rfl rfl rfl))
  es s := by simp [moved8]
  df s := by simp [moved8]
  di s := by simp [moved8]
  cx s := by simp [moved8]

theorem storesElement_moved16 : StoresElement wordAddrs 2 moved16 where
  stored s := (storedOnly_checkedWord s _ _ _).trans ((storedOnly_storeWord (List.Subset.refl _) _ _).trans (.of_fields rfl rfl rfl))
  es s := by simp [moved16]
  df s := by simp [moved16]
  di s := by simp [moved16]
  cx s := by simp [moved16]

theorem storesElement_filled8 : StoresElement byteAddrs 1 filled8 where
  stored s := (storedOnly_storeByte List.mem_cons_self s _).trans (.of_fields rfl rfl rfl)
  es s := by simp [filled8]
  df s := by simp [filled8]
  di s := by simp [filled8]
  cx s := by simp [filled8]

theorem storesElement_filled16 : StoresElement wordAddrs 2 filled16 where
  stored s := (storedOnly_storeWord (List.Subset.refl _) s _).trans (.of_fields rfl rfl rfl)
  es s := by simp [filled16]
  df s := by simp [filled16]
  di s := by simp [filled16]
  cx s := by simp [filled16]

end Sys2Proof.Machine
end

section
/-! SUPPORT. Every instruction stores to the addresses `storesOf` gives it and to no other (20_memory.md R92), and the frame of memory that
follows. -/

namespace Sys2Proof.Machine

/-- Under the quiet host every instruction stores to bytes at `storesOf` only, and changes no permission; where it raises an interrupt, the
host must be quiet at that call too. `dsimp only [exec]` takes each case to that instruction's own meaning. -/
theorem stores_exec (i : Instr) (s : State) (hi : raises i s = true → QuietAtInterrupt s) : Stores (storesOf i s) s (exec i s) := by
  cases i with dsimp only [exec]
  | addEbGb e | orEbGb e | adcEbGb e | sbbEbGb e | andEbGb e | subEbGb e | xorEbGb e
  | addEbIb e | orEbIb e | adcEbIb e | sbbEbIb e | andEbIb e | subEbIb e | xorEbIb e =>
    exact stores_aluRm8 (fun _ => List.Subset.refl (e.addrs s)) _
  | addEvGv e | orEvGv e | adcEvGv e | sbbEvGv e | andEvGv e | subEvGv e | xorEvGv e
  | addEvIw e | orEvIw e | adcEvIw e | sbbEvIw e | andEvIw e | subEvIw e | xorEvIw e
  | addEvSib e | orEvSib e | adcEvSib e | sbbEvSib e | andEvSib e | subEvSib e | xorEvSib e =>
    exact stores_aluRm16 (fun _ => List.Subset.refl (e.addrs s)) _
  | cmpEbGb | cmpEbIb => exact stores_aluRm8 (op := .cmp) nofun _
  | cmpEvGv | cmpEvIw | cmpEvSib => exact stores_aluRm16 (op := .cmp) nofun _
  | testEbGb | testEbIb => exact stores_aluRm8 (op := .test) nofun _
  | testEvGv | testEvIw => exact stores_aluRm16 (op := .test) nofun _
  | addGbEb g e | orGbEb g e | adcGbEb g e | sbbGbEb g e | andGbEb g e | subGbEb g e | xorGbEb g e | cmpGbEb g e =>
    exact stores_aluReg8 _ g e
  | addGvEv g e | orGvEv g e | adcGvEv g e | sbbGvEv g e | andGvEv g e | subGvEv g e | xorGvEv g e | cmpGvEv g e =>
    exact stores_aluReg16 _ g e
  | addAlIb imm | orAlIb imm | adcAlIb imm | sbbAlIb imm | andAlIb imm | subAlIb imm | xorAlIb imm | cmpAlIb imm | testAlIb imm =>
    exact stores_aluAcc8 _ imm
  | addAxIw imm | orAxIw imm | adcAxIw imm | sbbAxIw imm | andAxIw imm | subAxIw imm | xorAxIw imm | cmpAxIw imm | testAxIw imm =>
    exact stores_aluAcc16 _ imm
  | incEb e | decEb e | negEb e | notEb e => exact stores_modifyRm8 e fun _ _ => .of_fields rfl rfl rfl
  | incEv e | decEv e | negEv e | notEv e => exact stores_modifyRm16 e fun _ _ => .of_fields rfl rfl rfl
  | incR16 r | decR16 r => exact stores_modifyRm16 (.reg r) fun _ _ => .of_fields rfl rfl rfl
  | rolEb1 e | rorEb1 e | rclEb1 e | rcrEb1 e | shlEb1 e | shrEb1 e | sarEb1 e
  | rolEbCl e | rorEbCl e | rclEbCl e | rcrEbCl e | shlEbCl e | shrEbCl e | sarEbCl e =>
    exact stores_modifyRm8 e (storedOnly_shiftValue _ _)
  | rolEv1 e | rorEv1 e | rclEv1 e | rcrEv1 e | shlEv1 e | shrEv1 e | sarEv1 e
  | rolEvCl e | rorEvCl e | rclEvCl e | rcrEvCl e | shlEvCl e | shrEvCl e | sarEvCl e =>
    exact stores_modifyRm16 e (storedOnly_shiftValue _ _)
  | mulEb e | imulEb e => exact (storesWith_readRm8 e s).thenWith fun _ t => stores_setProduct8 _ _ t
  | mulEv e | imulEv e => exact (storesWith_readRm16 e s).thenWith fun _ t => stores_setProduct16 _ _ t
  | divEb e => exact stores_execDivEb hi
  | divEv e => exact stores_execDivEv hi
  | idivEb e => exact stores_execIdivEb hi
  | idivEv e => exact stores_execIdivEv hi
  | aaa | aas => exact stores_asciiAdjust _ _ s
  | daa | das => exact stores_decimalAdjust _ s
  | aam base => exact stores_execAam hi
  | aad base => exact stores_execAad base s
  | jo | jno | jb | jnb | je | jne | jbe | ja | js | jns | jp | jnp | jl | jge | jle | jg | jcxz => exact stores_jumpIf _ _ s
  | loop | loope | loopne => exact stores_loop _ _ s
  | jmpRel8 | jmpRel16 | jmpAp => exact .next_of_fields rfl rfl rfl
  | jmpEv e => exact (storesWith_readRm16 e s).thenWith fun _ _ => .next_of_fields rfl rfl rfl
  | jmpMp m => exact (storesWith_readFar m s).thenWith fun _ _ => .next_of_fields rfl rfl rfl
  | callRel16 rel => exact stores_callNear _ _ s
  | callEv e => exact stores_execCallEv e s
  | callAp off sg => exact stores_callFar off sg s
  | callMp m => exact stores_execCallMp m s
  | ret | retIw => exact stores_returnNear _ s
  | retf | retfIw => exact stores_returnFar _ s
  | movEbGb e | movEbIb e => exact stores_writeRm8 (List.Subset.refl (e.addrs s)) _ s
  | movEvGv e | movEvIw e | movEwSw e => exact stores_writeRm16 (List.Subset.refl (e.addrs s)) _ s
  | movGbEb g e => exact (storesWith_readRm8 e s).thenWith fun _ _ => .next_of_fields rfl rfl rfl
  | movGvEv g e => exact (storesWith_readRm16 e s).thenWith fun _ _ => .next_of_fields rfl rfl rfl
  | movR8Ib | movR16Iw | leaGvM | cbw | cwd | lahf | sahf | xchgAxR16 => exact .next_of_fields rfl rfl rfl
  | movAlOb | xlat => exact stores_readByteTo _ _ _ s
  | movAxOv => exact (storesWith_memRead16 _ _ s).thenWith fun _ _ => .next_of_fields rfl rfl rfl
  | movObAl => exact stores_memWrite8 List.mem_cons_self _ s
  | movOvAx => exact stores_memWrite16 (List.Subset.refl _) _ s
  | movEsEw e | movSsEw e | movDsEw e => exact stores_loadSReg _ e s
  | pushR16 | pushEs | pushCs | pushSs | pushDs | pushf => exact stores_push16 _ s
  | pushEv e => exact stores_execPushEv e s
  | popR16 | popf => exact (storesWith_pop16 s).thenWith fun _ _ => .next_of_fields rfl rfl rfl
  | popEs | popSs | popDs => exact stores_popSReg _ s
  | popEv e => exact (storesWith_pop16 s).thenWith fun v t => stores_writeRm16 (List.Subset.refl (e.addrs s)) v t
  | xchgEbGb e g => exact stores_execXchgEbGb e g s
  | xchgEvGv e g => exact stores_execXchgEvGv e g s
  | ldsGvMp g m | lesGvMp g m => exact stores_loadFar _ g m s
  | inAlIb | inAlDx => exact stores_in8 _ s
  | inAxIb | inAxDx => exact stores_in16 _ s
  | outIbAl | outIbAx | outDxAl | outDxAx => exact stores_callHost rfl s
  | inv60 | inv8C | inv8D | inv8Ecs | inv8E | inv8F | invC4 | invC5 | invC6 | invC7 | invD0r6 | invD1r6 | invD2r6 | invD3r6
  | invF6r1 | invF7r1 | invFE | invFFr3 | invFFr5 | invFFr7 | inv0F | inv82 | invC0 | invC1 | invC8 | invC9 | invD6 | invF1 =>
    exact stores_callHost rfl s
  | segEs | segCs | segSs | segDs | repne | rep | lock => exact .next_of_fields rfl rfl rfl
  | movsb => exact storesElement_moved8.byteString (fun _ => movsBody8_quiet) s
  | movsw => exact storesElement_moved16.wordString (fun _ => movsBody16_quiet) s
  | stosb => exact storesElement_filled8.byteString (fun _ => stosBody8_quiet) s
  | stosw => exact storesElement_filled16.wordString (fun _ => stosBody16_quiet) s
  | cmpsb => exact stores_stringOp stores_cmpsBody8 _ s
  | cmpsw => exact stores_stringOp stores_cmpsBody16 _ s
  | scasb => exact stores_stringOp stores_scasBody8 _ s
  | scasw => exact stores_stringOp stores_scasBody16 _ s
  | lodsb => exact stores_stringOp stores_lodsBody8 _ s
  | lodsw => exact stores_stringOp stores_lodsBody16 _ s
  | intIb n => exact stores_interrupt (hi rfl) n
  | int3 => exact stores_interrupt (hi rfl) 3
  | into => exact stores_execInto hi
  | iret => exact stores_returnFromInterrupt s
  | hlt => exact stores_execHlt s
  | nop | wait | esc => exact .next .refl
  | clc | stc | cmc | cld | std | cli | sti => exact .next_of_fields rfl rfl rfl

/-- Settles O59: what an instruction stores is at the addresses of `storesOf` (`stores_exec`). -/
theorem frameOfMemory : Obligations.FrameOfMemory := by
  unfold Obligations.FrameOfMemory
  intro i s t hs hi h
  have frame := stores_exec i s hi hs t h
  exact ⟨frame.peek, frame.perm⟩

end Sys2Proof.Machine
end

section
/-! SUPPORT. The bytes of an encoding (30_encoding.md R130, R150): `parse` takes from bytes what `Body.bytes` writes, and `decode` with it. -/

namespace Sys2Proof

/-! ### A little-endian field -/

/-- A value a field of `n` bytes can hold: any where the field has two bytes, 0 where the instruction has no such field. -/
def FieldFits (n : Nat) (v : Word) : Prop := v.toNat < 256 ^ n

@[simp] theorem fieldFits_zero_iff {v : Word} : FieldFits 0 v ↔ v = 0 := by
  simp [FieldFits, BitVec.toNat_eq]

theorem fieldFits_zero (n : Nat) : FieldFits n 0 := Nat.pow_pos (by decide)

theorem fieldFits_of_two_le {n : Nat} (h : 2 ≤ n) (v : Word) : FieldFits n v :=
  v.isLt.trans_le (Nat.pow_le_pow_right (n := 256) (by decide) h)

theorem fieldFits_zext16 {n : Nat} (h : 1 ≤ n) (b : Byte) : FieldFits n (zext16 b) := by
  have hb : (zext16 b).toNat = b.toNat := BitVec.toNat_setWidth_of_le (by decide)
  rw [FieldFits, hb]
  exact b.isLt.trans_le (Nat.pow_le_pow_right (n := 256) (by decide) h)

theorem loByte_zext16 (b : Byte) : loByte (zext16 b) = b := BitVec.setWidth_setWidth_of_le b (by decide)

theorem zext16_loByte {v : Word} (h : FieldFits 1 v) : zext16 (loByte v) = v := by
  refine BitVec.eq_of_toNat_eq ?_
  simp only [zext16, loByte, BitVec.toNat_setWidth]
  have : v.toNat < 256 := h
  omega

/-- What `takeField` takes is what `fieldBytes` writes. -/
theorem takeField_eq_ok_iff {n : Nat} {bytes rest : List Byte} {v : Word} :
    takeField n bytes = .ok (v, rest) ↔ FieldFits n v ∧ fieldBytes n v ++ rest = bytes := by
  match n, bytes with
  | 0, bytes =>
    simp only [takeField, fieldBytes, fieldFits_zero_iff]
    constructor
    · rintro ⟨⟩
      exact ⟨rfl, rfl⟩
    · rintro ⟨rfl, rfl⟩
      rfl
  | 1, [] => simp [takeField, fieldBytes]
  | 1, lo :: bytes =>
    simp only [takeField, fieldBytes]
    constructor
    · rintro ⟨⟩
      exact ⟨fieldFits_zext16 (Nat.le_refl 1) lo, by rw [loByte_zext16]; rfl⟩
    · rintro ⟨h, ⟨⟩⟩
      rw [zext16_loByte h]
      rfl
  | n + 2, [] => simp [takeField, fieldBytes]
  | n + 2, [b] => simp [takeField, fieldBytes]
  | n + 2, lo :: hi :: bytes =>
    simp only [takeField, fieldBytes]
    constructor
    · rintro ⟨⟩
      exact ⟨fieldFits_of_two_le (by omega) _, by rw [Machine.loByte_wordOf, Machine.hiByte_wordOf]; rfl⟩
    · rintro ⟨-, ⟨⟩⟩
      rw [Machine.wordOf_halves]
      rfl

theorem length_fieldBytes (n : Nat) (v : Word) : (fieldBytes n v).length = min n 2 := by
  match n with
  | 0 => rfl
  | 1 => rfl
  | n + 2 => simp [fieldBytes]

/-! ### The fields of an instruction -/

/-- The fields can be those of an instruction: one it does not have is 0, and an 8-bit one is in the low byte. -/
structure Body.Fits (b : Body) : Prop where
  modrm : hasModrm b.op = false → b.modrm = 0
  disp : FieldFits (dispLenOf b.op b.modrm) b.disp
  imm : FieldFits (immLen1 b.op b.modrm) b.imm
  seg : FieldFits (immLen2 b.op b.modrm) b.seg

/-- The mod/reg/rm byte, where the opcode has one (30_encoding.md R130). -/
def modrmBytes (op modrm : Byte) : List Byte := if hasModrm op then [modrm] else []

theorem takeModrm_eq_ok_iff {op modrm : Byte} {bytes rest : List Byte} :
    takeModrm op bytes = .ok (modrm, rest) ↔ (hasModrm op = false → modrm = 0) ∧ modrmBytes op modrm ++ rest = bytes := by
  unfold takeModrm modrmBytes
  cases hasModrm op with
  | false =>
    constructor
    · rintro ⟨⟩
      exact ⟨fun _ => rfl, rfl⟩
    · rintro ⟨h, rfl⟩
      rw [h rfl]
      rfl
  | true =>
    cases bytes with
    | nil => exact iff_of_false nofun fun h => nomatch h.2
    | cons b bytes =>
      constructor
      · rintro ⟨⟩
        exact ⟨nofun, rfl⟩
      · rintro ⟨-, ⟨⟩⟩
        rfl

theorem Body.bytes_eq (b : Body) : b.bytes = b.op :: (modrmBytes b.op b.modrm ++ (fieldBytes (dispLenOf b.op b.modrm) b.disp ++
    (fieldBytes (immLen1 b.op b.modrm) b.imm ++ fieldBytes (immLen2 b.op b.modrm) b.seg))) := by
  simp [Body.bytes, modrmBytes]

/-- `parse` takes the four fields in turn. -/
theorem parse_cons_eq_ok_iff {op : Byte} {bytes rest : List Byte} {b : Body} :
    parse (op :: bytes) = .ok (b, rest) ↔ b.op = op ∧ ∃ bytes₁ bytes₂ bytes₃, takeModrm op bytes = .ok (b.modrm, bytes₁) ∧
      takeField (dispLenOf op b.modrm) bytes₁ = .ok (b.disp, bytes₂) ∧ takeField (immLen1 op b.modrm) bytes₂ = .ok (b.imm, bytes₃) ∧
      takeField (immLen2 op b.modrm) bytes₃ = .ok (b.seg, rest) := by
  constructor
  · intro h
    unfold parse at h
    dsimp only at h
    split at h
    next => cases h
    next hm =>
      split at h
      next => cases h
      next hd =>
        split at h
        next => cases h
        next hi =>
          split at h
          next => cases h
          next hs =>
            cases h
            exact ⟨rfl, _, _, _, hm, hd, hi, hs⟩
  · rintro ⟨rfl, _, _, _, hm, hd, hi, hs⟩
    unfold parse
    dsimp only
    simp only [hm, hd, hi, hs]

/-- `parse` is the inverse of `Body.bytes` on the fields that fit. -/
theorem parse_eq_ok_iff {bytes rest : List Byte} {b : Body} :
    parse bytes = .ok (b, rest) ↔ b.Fits ∧ b.bytes ++ rest = bytes := by
  cases bytes with
  | nil => exact iff_of_false nofun fun ⟨_, h⟩ => by simp [Body.bytes_eq] at h
  | cons op bytes =>
    simp only [parse_cons_eq_ok_iff, takeModrm_eq_ok_iff, takeField_eq_ok_iff, Body.bytes_eq, List.cons_append, List.append_assoc,
      List.cons.injEq]
    constructor
    · rintro ⟨rfl, _, _, _, ⟨hm, rfl⟩, ⟨hd, rfl⟩, ⟨hi, rfl⟩, hs, rfl⟩
      exact ⟨⟨hm, hd, hi, hs⟩, rfl, rfl⟩
    · rintro ⟨⟨hm, hd, hi, hs⟩, rfl, h⟩
      exact ⟨rfl, _, _, _, ⟨hm, h⟩, ⟨hd, rfl⟩, ⟨hi, rfl⟩, hs, rfl⟩

/-- What decodes to an instruction is the bytes of fields that spell it, and the rest. -/
theorem decode_eq_ok_iff {bytes rest : List Byte} {i : Instr} :
    decode bytes = .ok (i, rest) ↔ ∃ b : Body, b.Fits ∧ b.bytes ++ rest = bytes ∧ b.instr = i := by
  have hdecode : decode bytes = .ok (i, rest) ↔ ∃ b, parse bytes = .ok (b, rest) ∧ b.instr = i := by
    unfold decode
    split
    next h => simp [h]
    next h => simp [h, and_comm]
  simp only [hdecode, parse_eq_ok_iff, and_assoc]

end Sys2Proof
end

section
/-! SUPPORT. From an instruction to its fields and back (30_encoding.md R140-R143, R165): the fields the encoder writes fit and spell the
instruction. -/

namespace Sys2Proof

/-! ### Register codes -/

@[simp] theorem Reg16.ofCode_code (r : Reg16) : Reg16.ofCode r.code = r := by cases r <;> rfl
@[simp] theorem Reg8.ofCode_code (r : Reg8) : Reg8.ofCode r.code = r := by cases r <;> rfl
@[simp] theorem SReg.ofCode_code (r : SReg) : SReg.ofCode r.code = r := by cases r <;> rfl
@[simp] theorem AddrBase.ofCode_code (b : AddrBase) : AddrBase.ofCode b.code = b := by cases b <;> rfl

@[simp] theorem Reg16.code_ofCode : ∀ c : BitVec 3, (Reg16.ofCode c).code = c := by decide
@[simp] theorem Reg8.code_ofCode : ∀ c : BitVec 3, (Reg8.ofCode c).code = c := by decide
@[simp] theorem SReg.code_ofCode : ∀ c : BitVec 2, (SReg.ofCode c).code = c := by decide
@[simp] theorem AddrBase.code_ofCode : ∀ c : BitVec 3, (AddrBase.ofCode c).code = c := by decide

/-! ### The mod/reg/rm byte -/

section
variable (md : BitVec 2) (reg rm : BitVec 3)

theorem modField_append : modField (md ++ reg ++ rm) = md := by revert md reg rm; decide
theorem regField_append : regField (md ++ reg ++ rm) = reg := by revert md reg rm; decide
theorem rmField_append : rmField (md ++ reg ++ rm) = rm := by revert md reg rm; decide

end

/-- The three fields are the whole byte. -/
theorem append_fields (modrm : Byte) : modField modrm ++ regField modrm ++ rmField modrm = modrm := by revert modrm; decide

/-! ### What the fields of an encoding spell -/

@[simp] theorem MemOp.md_code_ne (m : MemOp) : m.code.md ≠ 3#2 := by cases m <;> simp [MemOp.code]

@[simp] theorem Rm16.md_code_reg (r : Reg16) : (Rm16.reg r).code.md = 3#2 := rfl

/-- Only `[BP]` alone is lost: its code is that of the displacement-only form (30_encoding.md R142). -/
theorem MemOp.ofFields_code {m : MemOp} (h : m.wf = true) : MemOp.ofFields m.code.md m.code.rm m.code.disp = m := by
  cases m with
  | direct d => rfl
  | base b =>
    cases b with
    | bp => cases h
    | bxSi | bxDi | bpSi | bpDi | si | di | bx => rfl
  | disp8 b d => exact congrArg₂ MemOp.disp8 (AddrBase.ofCode_code b) (loByte_zext16 d)
  | disp16 b d => exact congrArg (MemOp.disp16 · d) (AddrBase.ofCode_code b)

namespace Body
section
variable {op : Byte} {r : BitVec 3} {c : RmCode} {imm seg : Word} {m : MemOp}

@[simp] theorem reg_ofRm : (ofRm op r c imm).reg = r := regField_append c.md r c.rm
@[simp] theorem md_ofRm : (ofRm op r c imm).md = c.md := modField_append c.md r c.rm
@[simp] theorem rmField_ofRm : rmField (ofRm op r c imm).modrm = c.rm := rmField_append c.md r c.rm
@[simp] theorem imm_ofRm : (ofRm op r c imm).imm = imm := rfl
@[simp] theorem ib_ofRm {imm : Byte} : (ofRm op r c (imm.setWidth 16)).ib = imm := loByte_zext16 imm
@[simp] theorem ib_plain {imm : Byte} : (plain op (imm.setWidth 16) seg).ib = imm := loByte_zext16 imm
@[simp] theorem g8_ofRm {g : Reg8} : (ofRm op g.code c imm).g8 = g := by rw [g8, reg_ofRm, Reg8.ofCode_code]
@[simp] theorem g16_ofRm {g : Reg16} : (ofRm op g.code c imm).g16 = g := by rw [g16, reg_ofRm, Reg16.ofCode_code]
@[simp] theorem rmReg16_ofRm {g : Reg16} : (ofRm op r (Rm16.reg g).code imm).rmReg16 = g := by
  rw [rmReg16, rmField_ofRm]
  exact Reg16.ofCode_code g

theorem mem_ofRm (h : m.wf = true) : (ofRm op r m.code imm).mem = m := by
  rw [mem, md_ofRm, rmField_ofRm]
  exact MemOp.ofFields_code h

theorem e8_ofRm {e : Rm8} (h : e.wf = true) : (ofRm op r e.code imm).e8 = e := by
  cases e with
  | reg k => simp [e8, Rm8.code]
  | mem m => exact (if_neg (md_ofRm.trans_ne m.md_code_ne)).trans (congrArg Rm8.mem (mem_ofRm h))

theorem e16_ofRm {e : Rm16} (h : e.wf = true) : (ofRm op r e.code imm).e16 = e := by
  cases e with
  | reg k => simp [e16, rmReg16, Rm16.code]
  | mem m => exact (if_neg (md_ofRm.trans_ne m.md_code_ne)).trans (congrArg Rm16.mem (mem_ofRm h))
end

/-- The row of the opcode map that `op` selects, filled from the fields of `b`. It is `Body.instr` with the opcode apart from the fields, so that
a literal opcode selects its row by computation while the fields stay variables. -/
def row (op : Byte) (b : Body) : Instr :=
  let lo := op.toNat % 16
  match op.toNat / 16 with
  | 0 => opcodes0 b lo
  | 1 => opcodes1 b lo
  | 2 => opcodes2 b lo
  | 3 => opcodes3 b lo
  | 4 => opcodes4 b lo
  | 5 => opcodes5 b lo
  | 6 => opcodes6 b lo
  | 7 => opcodes7 b lo
  | 8 => opcodes8 b lo
  | 9 => opcodes9 b lo
  | 10 => opcodesA b lo
  | 11 => opcodesB b lo
  | 12 => opcodesC b lo
  | 13 => opcodesD b lo
  | 14 => opcodesE b lo
  | _ => opcodesF b lo

theorem instr_eq_row (b : Body) : b.instr = row b.op b := rfl

theorem instr_ofRm (op : Byte) (r : BitVec 3) (c : RmCode) (imm : Word) :
    (ofRm op r c imm).instr = row op (ofRm op r c imm) := rfl

theorem instr_plain (op : Byte) (imm seg : Word) : (plain op imm seg).instr = row op (plain op imm seg) := rfl

end Body

open Body

/-- The codes of a 3-bit field. -/
theorem code_cases (c : BitVec 3) : c = 0 ∨ c = 1 ∨ c = 2 ∨ c = 3 ∨ c = 4 ∨ c = 5 ∨ c = 6 ∨ c = 7 := by revert c; decide

/-! ### Opcodes with a register code in their low bits (30_encoding.md R134) -/

theorem setWidth_or_code {base : Byte} (h : base.setWidth 3 = 0#3) (c : BitVec 3) : (base ||| c.setWidth 8).setWidth 3 = c := by
  rw [BitVec.setWidth_or, h, BitVec.zero_or, BitVec.setWidth_setWidth_of_le _ (by decide), BitVec.setWidth_eq]

section
variable {base : Byte} (h : base.setWidth 3 = 0#3) {imm seg : Word}
include h

theorem Body.lowReg16_plain (r : Reg16) : (plain (base ||| r.code.setWidth 8) imm seg).lowReg16 = r :=
  (congrArg Reg16.ofCode (setWidth_or_code h r.code)).trans r.ofCode_code

theorem Body.lowReg8_plain (r : Reg8) : (plain (base ||| r.code.setWidth 8) imm seg).lowReg8 = r :=
  (congrArg Reg8.ofCode (setWidth_or_code h r.code)).trans r.ofCode_code
end

section
variable (c : BitVec 3) (b : Body)

theorem Body.row_movR16Iw : row (0xB8 ||| c.setWidth 8) b = .movR16Iw b.lowReg16 b.imm := by
  rcases code_cases c with rfl | rfl | rfl | rfl | rfl | rfl | rfl | rfl <;> rfl

theorem Body.row_movR8Ib : row (0xB0 ||| c.setWidth 8) b = .movR8Ib b.lowReg8 b.ib := by
  rcases code_cases c with rfl | rfl | rfl | rfl | rfl | rfl | rfl | rfl <;> rfl

theorem Body.row_esc : row (0xD8 ||| c.setWidth 8) b = .esc (b.op.setWidth 3) b.reg b.e16 := by
  rcases code_cases c with rfl | rfl | rfl | rfl | rfl | rfl | rfl | rfl <;> rfl
end

/-! ### The fallback rows of the groups (30_encoding.md R165, R170) -/

theorem popGroup_invalid {b : Body} (h : b.reg ≠ 0) : popGroup b = .inv8F b.reg b.e16 := by
  unfold popGroup
  split
  next h0 => exact absurd (BitVec.eq_of_toNat_eq h0) h
  next => rfl

theorem movGroupEb_invalid {b : Body} (h : b.reg ≠ 0) : movGroupEb b = .invC6 b.reg b.e8 := by
  unfold movGroupEb
  split
  next h0 => exact absurd (BitVec.eq_of_toNat_eq h0) h
  next => rfl

theorem movGroupEv_invalid {b : Body} (h : b.reg ≠ 0) : movGroupEv b = .invC7 b.reg b.e16 := by
  unfold movGroupEv
  split
  next h0 => exact absurd (BitVec.eq_of_toNat_eq h0) h
  next => rfl

theorem group4_invalid {b : Body} (h : 2 ≤ b.reg.toNat) : group4 b = .invFE b.reg b.e8 := by
  unfold group4
  split
  next => omega
  next => omega
  next => rfl

theorem movSreg_invalid {b : Body} (h : 4 ≤ b.reg.toNat) : movSreg b = .inv8E (b.reg.setWidth 2) b.e16 := by
  unfold movSreg
  split
  next => omega
  next => omega
  next => omega
  next => omega
  next => rfl

/-! The reg field of 0x8C and 0x8E: the code of a segment register below 4, an invalid row from 4 on. -/

theorem setWidth_append (a : BitVec 1) (r : BitVec 2) : (a ++ r).setWidth 2 = r := by revert a r; decide

theorem toNat_append_lt (r : BitVec 2) : (0#1 ++ r).toNat < 4 := by revert r; decide

theorem le_toNat_append (r : BitVec 2) : 4 ≤ (1#1 ++ r).toNat := by revert r; decide

theorem Body.sreg_ofRm {op : Byte} {c : RmCode} {imm : Word} (r : SReg) : (ofRm op (0#1 ++ r.code) c imm).sreg = r := by
  rw [sreg, reg_ofRm, setWidth_append, SReg.ofCode_code]

/-! ### The fields of an instruction spell it -/

/-- The fields the encoder writes for a well-formed instruction select its row and give back its operands. The cases are the shapes of the
rows: `dsimp only` leaves each as `row` of a literal opcode, which computes to the row; a group then looks at the reg field. -/
theorem Instr.instr_body {i : Instr} (h : i.wf = true) : i.body.instr = i := by
  cases i with dsimp only [Instr.body, instr_ofRm, instr_plain]
  | addEbGb | orEbGb | adcEbGb | sbbEbGb | andEbGb | subEbGb | xorEbGb | cmpEbGb | testEbGb | xchgEbGb | movEbGb =>
    exact congrArg₂ _ (e8_ofRm h) g8_ofRm
  | addEvGv | orEvGv | adcEvGv | sbbEvGv | andEvGv | subEvGv | xorEvGv | cmpEvGv | testEvGv | xchgEvGv | movEvGv =>
    exact congrArg₂ _ (e16_ofRm h) g16_ofRm
  | addGbEb | orGbEb | adcGbEb | sbbGbEb | andGbEb | subGbEb | xorGbEb | cmpGbEb | movGbEb =>
    exact congrArg₂ _ g8_ofRm (e8_ofRm h)
  | addGvEv | orGvEv | adcGvEv | sbbGvEv | andGvEv | subGvEv | xorGvEv | cmpGvEv | movGvEv =>
    exact congrArg₂ _ g16_ofRm (e16_ofRm h)
  | addAlIb | orAlIb | adcAlIb | sbbAlIb | andAlIb | subAlIb | xorAlIb | cmpAlIb | testAlIb | jo | jno | jb | jnb | je | jne | jbe | ja | js
  | jns | jp | jnp | jl | jge | jle | jg | loopne | loope | loop | jcxz | jmpRel8 | intIb | aam | aad | inAlIb | inAxIb | outIbAl | outIbAx =>
    exact congrArg _ ib_plain
  | addAxIw | orAxIw | adcAxIw | sbbAxIw | andAxIw | subAxIw | xorAxIw | cmpAxIw | testAxIw | movAlOb | movAxOv | movObAl | movOvAx
  | callRel16 | jmpRel16 | retIw | retfIw | callAp | jmpAp => rfl
  | incR16 r | decR16 r | pushR16 r | popR16 r => cases r <;> rfl
  | movR16Iw r imm => exact (row_movR16Iw ..).trans (congrArg (movR16Iw · imm) (lowReg16_plain rfl r))
  | movR8Ib r => exact (row_movR8Ib ..).trans (congrArg₂ _ (lowReg8_plain rfl r) ib_plain)
  | xchgAxR16 r =>
    cases r with
    | ax => cases h
    | cx | dx | bx | sp | bp | si | di => rfl
  | inv60 lo => revert lo; decide
  | esc n r e =>
    rw [row_esc, reg_ofRm, e16_ofRm h]
    exact congrArg (esc · r e) (setWidth_or_code rfl n)
  | addEbIb | orEbIb | adcEbIb | sbbEbIb | andEbIb | subEbIb | xorEbIb | cmpEbIb =>
    show group1Eb _ = _
    simp [group1Eb, e8_ofRm h]
  | addEvIw | orEvIw | adcEvIw | sbbEvIw | andEvIw | subEvIw | xorEvIw | cmpEvIw =>
    show group1EvIw _ = _
    simp [group1EvIw, e16_ofRm h]
  | addEvSib | orEvSib | adcEvSib | sbbEvSib | andEvSib | subEvSib | xorEvSib | cmpEvSib =>
    show group1EvSib _ = _
    simp [group1EvSib, e16_ofRm h]
  | movEsEw | movSsEw | movDsEw | inv8Ecs =>
    show movSreg _ = _
    simp [movSreg, e16_ofRm h]
  | inv8E r e =>
    refine (movSreg_invalid (b := ofRm ..) (reg_ofRm ▸ le_toNat_append r)).trans ?_
    rw [reg_ofRm, setWidth_append, e16_ofRm h]
  | popEv =>
    show popGroup _ = _
    simp [popGroup, e16_ofRm h]
  | inv8F r e =>
    obtain ⟨he, hr⟩ := (Bool.and_eq_true_iff).1 h
    refine (popGroup_invalid (b := ofRm ..) (reg_ofRm ▸ bne_iff_ne.1 hr)).trans ?_
    rw [reg_ofRm, e16_ofRm he]
  | movEbIb =>
    show movGroupEb _ = _
    simp [movGroupEb, e8_ofRm h]
  | movEvIw =>
    show movGroupEv _ = _
    simp [movGroupEv, e16_ofRm h]
  | rolEb1 | rorEb1 | rclEb1 | rcrEb1 | shlEb1 | shrEb1 | invD0r6 | sarEb1 =>
    show group2Eb1 _ = _
    simp [group2Eb1, e8_ofRm h]
  | rolEv1 | rorEv1 | rclEv1 | rcrEv1 | shlEv1 | shrEv1 | invD1r6 | sarEv1 =>
    show group2Ev1 _ = _
    simp [group2Ev1, e16_ofRm h]
  | rolEbCl | rorEbCl | rclEbCl | rcrEbCl | shlEbCl | shrEbCl | invD2r6 | sarEbCl =>
    show group2EbCl _ = _
    simp [group2EbCl, e8_ofRm h]
  | rolEvCl | rorEvCl | rclEvCl | rcrEvCl | shlEvCl | shrEvCl | invD3r6 | sarEvCl =>
    show group2EvCl _ = _
    simp [group2EvCl, e16_ofRm h]
  | testEbIb | invF6r1 | notEb | negEb | mulEb | imulEb | divEb | idivEb =>
    show group3Eb _ = _
    simp [group3Eb, e8_ofRm h]
  | testEvIw | invF7r1 | notEv | negEv | mulEv | imulEv | divEv | idivEv =>
    show group3Ev _ = _
    simp [group3Ev, e16_ofRm h]
  | incEb | decEb =>
    show group4 _ = _
    simp [group4, e8_ofRm h]
  | invFE r e =>
    obtain ⟨he, hr⟩ := (Bool.and_eq_true_iff).1 h
    refine (group4_invalid (b := ofRm ..) (reg_ofRm ▸ of_decide_eq_true hr)).trans ?_
    rw [reg_ofRm, e8_ofRm he]
  | incEv | decEv | callEv | jmpEv | pushEv | invFFr7 =>
    show group5 _ = _
    simp [group5, e16_ofRm h]
  | callMp | jmpMp =>
    show group5 _ = _
    simp [group5, MemOp.md_code_ne, mem_ofRm h]
  | invFFr3 | invFFr5 =>
    show group5 _ = _
    simp [group5]
  | movEwSw e r =>
    exact (if_pos (reg_ofRm ▸ toNat_append_lt r.code)).trans (congrArg₂ _ (e16_ofRm h) (sreg_ofRm r))
  | inv8C r e =>
    refine (if_neg (reg_ofRm ▸ (le_toNat_append r).not_gt)).trans ?_
    rw [reg_ofRm, setWidth_append, e16_ofRm h]
  | leaGvM | lesGvMp | ldsGvMp => exact (if_neg (md_ofRm.trans_ne (MemOp.md_code_ne _))).trans (congrArg₂ _ g16_ofRm (mem_ofRm h))
  | inv8D | invC4 | invC5 => exact (if_pos md_ofRm).trans (congrArg₂ _ g16_ofRm rmReg16_ofRm)
  | invC6 r e =>
    obtain ⟨he, hr⟩ := (Bool.and_eq_true_iff).1 h
    refine (movGroupEb_invalid (b := ofRm ..) (reg_ofRm ▸ bne_iff_ne.1 hr)).trans ?_
    rw [reg_ofRm, e8_ofRm he]
  | invC7 r e =>
    obtain ⟨he, hr⟩ := (Bool.and_eq_true_iff).1 h
    refine (movGroupEv_invalid (b := ofRm ..) (reg_ofRm ▸ bne_iff_ne.1 hr)).trans ?_
    rw [reg_ofRm, e16_ofRm he]
  | pushEs | popEs | pushCs | pushSs | popSs | pushDs | popDs | inv0F | segEs | segCs | segSs | segDs | daa | das | aaa | aas | inv82 | nop
  | cbw | cwd | wait | pushf | popf | sahf | lahf | movsb | movsw | cmpsb | cmpsw | stosb | stosw | lodsb | lodsw | scasb | scasw | invC0
  | invC1 | invC8 | invC9 | invD6 | invF1 | ret | retf | int3 | into | iret | xlat | inAlDx | inAxDx | outDxAl | outDxAx | lock | repne | rep
  | hlt | cmc | clc | stc | cli | sti | cld | std => rfl

/-! ### The fields the encoder writes fit -/

/-- The displacement of an operand's code fits the length its mod and rm fields give it, whatever the reg field. -/
def RmCode.Fits (c : RmCode) : Prop := ∀ r : BitVec 3, FieldFits (dispLen (c.md ++ r ++ c.rm)) c.disp

theorem MemOp.fits_code (m : MemOp) : m.code.Fits := by
  intro r
  cases m with
  | direct d => exact fieldFits_of_two_le (by simp [dispLen, MemOp.code, modField_append, rmField_append]) d
  | base b => exact fieldFits_zero _
  | disp8 b d => exact fieldFits_zext16 (by simp [dispLen, MemOp.code, modField_append]) d
  | disp16 b d => exact fieldFits_of_two_le (by simp [dispLen, MemOp.code, modField_append]) d

theorem Rm8.fits_code (e : Rm8) : e.code.Fits := by
  cases e with
  | reg r => exact fun _ => fieldFits_zero _
  | mem m => exact m.fits_code

theorem Rm16.fits_code (e : Rm16) : e.code.Fits := by
  cases e with
  | reg r => exact fun _ => fieldFits_zero _
  | mem m => exact m.fits_code

theorem hasModrm_esc : ∀ n : BitVec 3, hasModrm (0xD8 ||| n.setWidth 8) = true := by decide
theorem immLen_movR8Ib : ∀ c : BitVec 3, immLen (0xB0 ||| c.setWidth 8) 0 = 1 := by decide
theorem immLen_movR16Iw : ∀ c : BitVec 3, immLen (0xB8 ||| c.setWidth 8) 0 = 2 := by decide

namespace Body
section
variable {op : Byte} {r : BitVec 3} {c : RmCode} {imm seg : Word}

theorem fits_plain_of (hi : FieldFits (immLen1 op 0) imm) (hs : FieldFits (immLen2 op 0) seg) : (plain op imm seg).Fits :=
  ⟨fun _ => rfl, fieldFits_zero _, hi, hs⟩

theorem fits_plain : (plain op).Fits := fits_plain_of (fieldFits_zero _) (fieldFits_zero _)

theorem fits_plain_ib {imm : Byte} (h : immLen op 0 = 1) : (plain op (imm.setWidth 16)).Fits :=
  fits_plain_of (fieldFits_zext16 (by rw [immLen1, h]; decide) imm) (fieldFits_zero _)

theorem fits_plain_iw (h : immLen op 0 = 2) : (plain op imm).Fits :=
  fits_plain_of (fieldFits_of_two_le (by rw [immLen1, h]; decide) imm) (fieldFits_zero _)

theorem fits_plain_far (h : immLen op 0 = 4) : (plain op imm seg).Fits :=
  fits_plain_of (fieldFits_of_two_le (by rw [immLen1, h]; decide) imm) (fieldFits_of_two_le (by rw [immLen2, h]) seg)

section
variable (hm : hasModrm op = true) (hc : c.Fits)
include hm hc

theorem fits_ofRm_of (hi : FieldFits (immLen1 op (c.md ++ r ++ c.rm)) imm) : (ofRm op r c imm).Fits := by
  refine ⟨fun h => absurd (hm.symm.trans h) nofun, ?_, hi, fieldFits_zero _⟩
  show FieldFits (dispLenOf op (c.md ++ r ++ c.rm)) c.disp
  rw [dispLenOf, if_pos hm]
  exact hc r

theorem fits_ofRm : (ofRm op r c).Fits := fits_ofRm_of hm hc (fieldFits_zero _)

theorem fits_ofRm_ib {imm : Byte} (h : immLen op (c.md ++ r ++ c.rm) = 1) : (ofRm op r c (imm.setWidth 16)).Fits :=
  fits_ofRm_of hm hc (fieldFits_zext16 (by rw [immLen1, h]; decide) imm)

theorem fits_ofRm_iw (h : immLen op (c.md ++ r ++ c.rm) = 2) : (ofRm op r c imm).Fits :=
  fits_ofRm_of hm hc (fieldFits_of_two_le (by rw [immLen1, h]; decide) imm)
end

end
end Body

/-- The encoder leaves a field the instruction does not have 0; the last case is the opcodes that stand alone. -/
theorem Instr.fits_body (i : Instr) : i.body.Fits := by
  cases i with dsimp only [Instr.body]
  | addEbGb e | orEbGb e | adcEbGb e | sbbEbGb e | andEbGb e | subEbGb e | xorEbGb e | cmpEbGb e | testEbGb e | xchgEbGb e | movEbGb e
  | addGbEb _ e | orGbEb _ e | adcGbEb _ e | sbbGbEb _ e | andGbEb _ e | subGbEb _ e | xorGbEb _ e | cmpGbEb _ e | movGbEb _ e
  | invC6 _ e | rolEb1 e | rorEb1 e | rclEb1 e | rcrEb1 e | shlEb1 e | shrEb1 e | invD0r6 e | sarEb1 e
  | rolEbCl e | rorEbCl e | rclEbCl e | rcrEbCl e | shlEbCl e | shrEbCl e | invD2r6 e | sarEbCl e
  | invF6r1 e | notEb e | negEb e | mulEb e | imulEb e | divEb e | idivEb e | incEb e | decEb e | invFE _ e =>
    exact fits_ofRm rfl e.fits_code
  | addEvGv e | orEvGv e | adcEvGv e | sbbEvGv e | andEvGv e | subEvGv e | xorEvGv e | cmpEvGv e | testEvGv e | xchgEvGv e | movEvGv e
  | addGvEv _ e | orGvEv _ e | adcGvEv _ e | sbbGvEv _ e | andGvEv _ e | subGvEv _ e | xorGvEv _ e | cmpGvEv _ e | movGvEv _ e
  | movEwSw e | inv8C _ e | movEsEw e | movSsEw e | movDsEw e | inv8Ecs e | inv8E _ e | popEv e | inv8F _ e | invC7 _ e
  | rolEv1 e | rorEv1 e | rclEv1 e | rcrEv1 e | shlEv1 e | shrEv1 e | invD1r6 e | sarEv1 e
  | rolEvCl e | rorEvCl e | rclEvCl e | rcrEvCl e | shlEvCl e | shrEvCl e | invD3r6 e | sarEvCl e
  | invF7r1 e | notEv e | negEv e | mulEv e | imulEv e | divEv e | idivEv e
  | incEv e | decEv e | callEv e | jmpEv e | pushEv e | invFFr7 e => exact fits_ofRm rfl e.fits_code
  | leaGvM _ m | lesGvMp _ m | ldsGvMp _ m | callMp m | jmpMp m => exact fits_ofRm rfl m.fits_code
  | inv8D _ r | invC4 _ r | invC5 _ r | invFFr3 r | invFFr5 r => exact fits_ofRm rfl (Rm16.reg r).fits_code
  | esc n _ e => exact fits_ofRm (hasModrm_esc n) e.fits_code
  | addEbIb e | orEbIb e | adcEbIb e | sbbEbIb e | andEbIb e | subEbIb e | xorEbIb e | cmpEbIb e => exact fits_ofRm_ib rfl e.fits_code rfl
  | addEvSib e | orEvSib e | adcEvSib e | sbbEvSib e | andEvSib e | subEvSib e | xorEvSib e | cmpEvSib e =>
    exact fits_ofRm_ib rfl e.fits_code rfl
  | addEvIw e | orEvIw e | adcEvIw e | sbbEvIw e | andEvIw e | subEvIw e | xorEvIw e | cmpEvIw e => exact fits_ofRm_iw rfl e.fits_code rfl
  | movEbIb e | testEbIb e => exact fits_ofRm_ib rfl e.fits_code (if_pos (regField_append ..))
  | movEvIw e | testEvIw e => exact fits_ofRm_iw rfl e.fits_code (if_pos (regField_append ..))
  | addAlIb | orAlIb | adcAlIb | sbbAlIb | andAlIb | subAlIb | xorAlIb | cmpAlIb | testAlIb | jo | jno | jb | jnb | je | jne | jbe | ja | js
  | jns | jp | jnp | jl | jge | jle | jg | loopne | loope | loop | jcxz | jmpRel8 | intIb | aam | aad | inAlIb | inAxIb | outIbAl | outIbAx =>
    exact fits_plain_ib rfl
  | movR8Ib r => exact fits_plain_ib (immLen_movR8Ib r.code)
  | addAxIw | orAxIw | adcAxIw | sbbAxIw | andAxIw | subAxIw | xorAxIw | cmpAxIw | testAxIw | movAlOb | movAxOv | movObAl | movOvAx
  | callRel16 | jmpRel16 | retIw | retfIw => exact fits_plain_iw rfl
  | movR16Iw r => exact fits_plain_iw (immLen_movR16Iw r.code)
  | callAp | jmpAp => exact fits_plain_far rfl
  | _ => exact fits_plain

end Sys2Proof
end

section
/-! SUPPORT. From fields to an instruction and back: what the decoder reads from fields that fit is well-formed and has those fields. -/

namespace Sys2Proof

open Body

/-! ### Operands from the fields -/

theorem code_ne_bp {rm : BitVec 3} (h : rm ≠ 6) : AddrBase.ofCode rm ≠ .bp := by revert rm; decide

theorem MemOp.wf_ofFields (md : BitVec 2) (rm : BitVec 3) (disp : Word) : (MemOp.ofFields md rm disp).wf = true := by
  unfold MemOp.ofFields
  split
  next =>
    split
    next => rfl
    next h => exact bne_iff_ne.2 (code_ne_bp h)
  next => rfl
  next => rfl

theorem mod_cases {md : BitVec 2} (h : md ≠ 3) : md = 0 ∨ md = 1 ∨ md = 2 := by revert md; decide

theorem MemOp.code_ofFields {modrm : Byte} {disp : Word} (h : modField modrm ≠ 3) (hd : FieldFits (dispLen modrm) disp) :
    (MemOp.ofFields (modField modrm) (rmField modrm) disp).code = ⟨modField modrm, rmField modrm, disp⟩ := by
  unfold dispLen at hd
  unfold MemOp.ofFields
  obtain hmd | hmd | hmd := mod_cases h
  · rw [hmd] at hd ⊢
    by_cases hrm : rmField modrm = 6
    · simp [hrm, MemOp.code]
    · simp_all [MemOp.code]
  · rw [hmd] at hd ⊢
    simp [MemOp.code, zext16_loByte hd]
  · rw [hmd]
    simp [MemOp.code]

namespace Body

/-- The instruction `i` is one the encoding can express, and `b` its fields. -/
def Spells (b : Body) (i : Instr) : Prop := i.wf = true ∧ i.body = b

/-- The mod and rm fields and the displacement of an instruction's fields. -/
def rmCode (b : Body) : RmCode := ⟨b.md, rmField b.modrm, b.disp⟩

section
variable (b : Body)

theorem wf_mem : b.mem.wf = true := MemOp.wf_ofFields ..

theorem wf_e8 : b.e8.wf = true := by
  unfold e8
  split
  next => rfl
  next => exact b.wf_mem

theorem wf_e16 : b.e16.wf = true := by
  unfold e16
  split
  next => rfl
  next => exact b.wf_mem

theorem code_g8 : b.g8.code = b.reg := Reg8.code_ofCode _
theorem code_g16 : b.g16.code = b.reg := Reg16.code_ofCode _

variable {b}

/-! The fields of E are the code of the operand they spell; `hd` says that the displacement has the length they give it. -/

theorem code_mem (h : b.md ≠ 3) (hd : FieldFits (dispLen b.modrm) b.disp) : b.mem.code = b.rmCode := MemOp.code_ofFields h hd

theorem disp_eq_zero (h : b.md = 3) (hd : FieldFits (dispLen b.modrm) b.disp) : b.disp = 0 := by
  have hlen : dispLen b.modrm = 0 := by
    unfold dispLen
    rw [show modField b.modrm = 3 from h]
    rfl
  exact fieldFits_zero_iff.1 (hlen ▸ hd)

theorem code_rmReg16 (h : b.md = 3) (hd : FieldFits (dispLen b.modrm) b.disp) : (Rm16.reg b.rmReg16).code = b.rmCode := by
  rw [rmCode, h, disp_eq_zero h hd]
  exact congrArg (RmCode.mk 3 · 0) (Reg16.code_ofCode _)

theorem code_e16 (hd : FieldFits (dispLen b.modrm) b.disp) : b.e16.code = b.rmCode := by
  unfold e16
  split
  next h => exact code_rmReg16 h hd
  next h => exact code_mem h hd

theorem code_e8 (hd : FieldFits (dispLen b.modrm) b.disp) : b.e8.code = b.rmCode := by
  unfold e8
  split
  next h =>
    rw [rmCode, h, disp_eq_zero h hd]
    exact congrArg (RmCode.mk 3 · 0) (Reg8.code_ofCode _)
  next h => exact code_mem h hd

end

/-! ### What the lengths leave of the fields -/

theorem Fits.imm_eq_zero {b : Body} (hb : b.Fits) (h : immLen b.op b.modrm = 0) : b.imm = 0 := by
  have himm := hb.imm
  rwa [immLen1, h, Nat.zero_min, fieldFits_zero_iff] at himm

theorem Fits.setWidth_ib {b : Body} (hb : b.Fits) (h : immLen b.op b.modrm = 1) : b.ib.setWidth 16 = b.imm := by
  have himm := hb.imm
  rw [immLen1, h] at himm
  exact zext16_loByte himm

theorem Fits.seg_eq_zero {b : Body} (hb : b.Fits) (h : immLen b.op b.modrm ≤ 2) : b.seg = 0 := by
  have hseg := hb.seg
  rwa [immLen2, Nat.sub_eq_zero_of_le h, fieldFits_zero_iff] at hseg

theorem Fits.disp_dispLen {b : Body} (hb : b.Fits) (h : hasModrm b.op = true) : FieldFits (dispLen b.modrm) b.disp := by
  have hdisp := hb.disp
  rwa [dispLenOf, if_pos h] at hdisp

theorem Fits.disp_eq_zero {b : Body} (hb : b.Fits) (h : hasModrm b.op = false) : b.disp = 0 := by
  have hdisp := hb.disp
  rwa [dispLenOf, h, if_neg nofun, fieldFits_zero_iff] at hdisp

/-! ### Fields written again -/

section
variable {b : Body} {op : Byte} (hb : b.Fits) (hop : b.op = op)
include hb hop

section
variable (hm : hasModrm op = false)
include hm

theorem plain_eq_of {imm seg : Word} (himm : imm = b.imm) (hseg : seg = b.seg) : plain op imm seg = b := by
  subst hop himm hseg
  have hmodrm := hb.modrm hm
  have hdisp := hb.disp_eq_zero hm
  cases b
  simp_all [plain]

theorem plain_eq_far : plain op b.imm b.seg = b := plain_eq_of hb hop hm rfl rfl

theorem plain_eq_iw (hn : immLen op b.modrm = 2) : plain op b.imm = b :=
  plain_eq_of hb hop hm rfl (hb.seg_eq_zero (hop ▸ hn.le)).symm

theorem plain_eq_ib (hn : immLen op b.modrm = 1) : plain op (b.ib.setWidth 16) = b :=
  plain_eq_of hb hop hm (hb.setWidth_ib (hop ▸ hn)) (hb.seg_eq_zero (hop ▸ hn.trans_le (by decide))).symm

theorem plain_eq (hn : immLen op b.modrm = 0) : plain op = b :=
  plain_eq_of hb hop hm (hb.imm_eq_zero (hop ▸ hn)).symm (hb.seg_eq_zero (hop ▸ hn.trans_le (by decide))).symm
end

variable {r : BitVec 3} {c : RmCode} (hm : hasModrm op = true) (hr : r = b.reg) (hc : FieldFits (dispLen b.modrm) b.disp → c = b.rmCode)
include hm hr hc

theorem ofRm_eq_of {imm : Word} (himm : imm = b.imm) (hseg : b.seg = 0) : ofRm op r c imm = b := by
  subst hop hr himm
  rw [hc (hb.disp_dispLen hm)]
  have hmodrm : b.md ++ b.reg ++ rmField b.modrm = b.modrm := append_fields b.modrm
  cases b
  simp_all [ofRm, rmCode]

theorem ofRm_eq_iw (hn : immLen op b.modrm = 2) : ofRm op r c b.imm = b :=
  ofRm_eq_of hb hop hm hr hc rfl (hb.seg_eq_zero (hop ▸ hn.le))

theorem ofRm_eq_ib (hn : immLen op b.modrm = 1) : ofRm op r c (b.ib.setWidth 16) = b :=
  ofRm_eq_of hb hop hm hr hc (hb.setWidth_ib (hop ▸ hn)) (hb.seg_eq_zero (hop ▸ hn.trans_le (by decide)))

theorem ofRm_eq (hn : immLen op b.modrm = 0) : ofRm op r c = b :=
  ofRm_eq_of hb hop hm hr hc (hb.imm_eq_zero (hop ▸ hn)).symm (hb.seg_eq_zero (hop ▸ hn.trans_le (by decide)))
end

theorem spells_ite_mod {b : Body} {i j : Instr} (hreg : b.md = 3 → b.Spells i) (hmem : b.md ≠ 3 → b.Spells j) :
    b.Spells (if b.md = 3 then i else j) := by
  split
  next h => exact hreg h
  next h => exact hmem h

/-! ### Opcodes with a register code in their low bits -/

section
variable {b : Body} {base op : Byte} (hop : b.op = op)
include hop

theorem or_code_lowReg16 (h : base ||| (op.setWidth 3).setWidth 8 = op) : base ||| b.lowReg16.code.setWidth 8 = op := by
  rw [lowReg16, Reg16.code_ofCode, hop, h]

theorem or_code_lowReg8 (h : base ||| (op.setWidth 3).setWidth 8 = op) : base ||| b.lowReg8.code.setWidth 8 = op := by
  rw [lowReg8, Reg8.code_ofCode, hop, h]

theorem or_setWidth_low {w : Nat} (h : base ||| (op.setWidth w).setWidth 8 = op) : base ||| (b.op.setWidth w).setWidth 8 = op := by
  rw [hop, h]

theorem lowReg16_ne_ax (h : Reg16.ofCode (op.setWidth 3) ≠ .ax) : (b.lowReg16 != .ax) = true := by
  rw [lowReg16, hop]
  exact bne_iff_ne.2 h
end

theorem append_code_sreg {b : Body} (h : b.reg.toNat < 4) : 0#1 ++ b.sreg.code = b.reg := by
  rw [sreg, SReg.code_ofCode]
  generalize b.reg = c at h
  revert c
  decide

theorem append_setWidth : ∀ c : BitVec 3, ¬c.toNat < 4 → 1#1 ++ c.setWidth 2 = c := by decide

/-! ### The groups (30_encoding.md R160, R165) -/
section
variable {b : Body} (hb : b.Fits)
include hb

theorem spells_group1Eb (hop : b.op = 0x80) : b.Spells (group1Eb b) := by
  obtain hr | hr | hr | hr | hr | hr | hr | hr := code_cases b.reg
  all_goals
    rw [group1Eb, hr]
    exact ⟨b.wf_e8, ofRm_eq_ib hb hop rfl hr.symm code_e8 rfl⟩

theorem spells_group1EvIw (hop : b.op = 0x81) : b.Spells (group1EvIw b) := by
  obtain hr | hr | hr | hr | hr | hr | hr | hr := code_cases b.reg
  all_goals
    rw [group1EvIw, hr]
    exact ⟨b.wf_e16, ofRm_eq_iw hb hop rfl hr.symm code_e16 rfl⟩

theorem spells_group1EvSib (hop : b.op = 0x83) : b.Spells (group1EvSib b) := by
  obtain hr | hr | hr | hr | hr | hr | hr | hr := code_cases b.reg
  all_goals
    rw [group1EvSib, hr]
    exact ⟨b.wf_e16, ofRm_eq_ib hb hop rfl hr.symm code_e16 rfl⟩

theorem spells_movSreg (hop : b.op = 0x8E) : b.Spells (movSreg b) := by
  obtain hr | hr | hr | hr | hr | hr | hr | hr := code_cases b.reg
  all_goals
    rw [movSreg, hr]
    exact ⟨b.wf_e16, ofRm_eq hb hop rfl hr.symm code_e16 rfl⟩

theorem spells_group2Eb1 (hop : b.op = 0xD0) : b.Spells (group2Eb1 b) := by
  obtain hr | hr | hr | hr | hr | hr | hr | hr := code_cases b.reg
  all_goals
    rw [group2Eb1, hr]
    exact ⟨b.wf_e8, ofRm_eq hb hop rfl hr.symm code_e8 rfl⟩

theorem spells_group2Ev1 (hop : b.op = 0xD1) : b.Spells (group2Ev1 b) := by
  obtain hr | hr | hr | hr | hr | hr | hr | hr := code_cases b.reg
  all_goals
    rw [group2Ev1, hr]
    exact ⟨b.wf_e16, ofRm_eq hb hop rfl hr.symm code_e16 rfl⟩

theorem spells_group2EbCl (hop : b.op = 0xD2) : b.Spells (group2EbCl b) := by
  obtain hr | hr | hr | hr | hr | hr | hr | hr := code_cases b.reg
  all_goals
    rw [group2EbCl, hr]
    exact ⟨b.wf_e8, ofRm_eq hb hop rfl hr.symm code_e8 rfl⟩

theorem spells_group2EvCl (hop : b.op = 0xD3) : b.Spells (group2EvCl b) := by
  obtain hr | hr | hr | hr | hr | hr | hr | hr := code_cases b.reg
  all_goals
    rw [group2EvCl, hr]
    exact ⟨b.wf_e16, ofRm_eq hb hop rfl hr.symm code_e16 rfl⟩

theorem spells_group3Eb (hop : b.op = 0xF6) : b.Spells (group3Eb b) := by
  obtain hr | hr | hr | hr | hr | hr | hr | hr := code_cases b.reg
  all_goals rw [group3Eb, hr]
  case inl => exact ⟨b.wf_e8, ofRm_eq_ib hb hop rfl hr.symm code_e8 (if_pos hr)⟩
  all_goals exact ⟨b.wf_e8, ofRm_eq hb hop rfl hr.symm code_e8 (if_neg (hr.trans_ne (by decide)))⟩

theorem spells_group3Ev (hop : b.op = 0xF7) : b.Spells (group3Ev b) := by
  obtain hr | hr | hr | hr | hr | hr | hr | hr := code_cases b.reg
  all_goals rw [group3Ev, hr]
  case inl => exact ⟨b.wf_e16, ofRm_eq_iw hb hop rfl hr.symm code_e16 (if_pos hr)⟩
  all_goals exact ⟨b.wf_e16, ofRm_eq hb hop rfl hr.symm code_e16 (if_neg (hr.trans_ne (by decide)))⟩

theorem spells_popGroup (hop : b.op = 0x8F) : b.Spells (popGroup b) := by
  by_cases hr : b.reg = 0
  · rw [popGroup, hr]
    exact ⟨b.wf_e16, ofRm_eq hb hop rfl hr.symm code_e16 rfl⟩
  · rw [popGroup_invalid hr]
    exact ⟨Bool.and_eq_true_iff.2 ⟨b.wf_e16, bne_iff_ne.2 hr⟩, ofRm_eq hb hop rfl rfl code_e16 rfl⟩

theorem spells_movGroupEb (hop : b.op = 0xC6) : b.Spells (movGroupEb b) := by
  by_cases hr : b.reg = 0
  · rw [movGroupEb, hr]
    exact ⟨b.wf_e8, ofRm_eq_ib hb hop rfl hr.symm code_e8 (if_pos hr)⟩
  · rw [movGroupEb_invalid hr]
    exact ⟨Bool.and_eq_true_iff.2 ⟨b.wf_e8, bne_iff_ne.2 hr⟩, ofRm_eq hb hop rfl rfl code_e8 (if_neg hr)⟩

theorem spells_movGroupEv (hop : b.op = 0xC7) : b.Spells (movGroupEv b) := by
  by_cases hr : b.reg = 0
  · rw [movGroupEv, hr]
    exact ⟨b.wf_e16, ofRm_eq_iw hb hop rfl hr.symm code_e16 (if_pos hr)⟩
  · rw [movGroupEv_invalid hr]
    exact ⟨Bool.and_eq_true_iff.2 ⟨b.wf_e16, bne_iff_ne.2 hr⟩, ofRm_eq hb hop rfl rfl code_e16 (if_neg hr)⟩

theorem spells_group4 (hop : b.op = 0xFE) : b.Spells (group4 b) := by
  by_cases h0 : b.reg = 0
  · rw [group4, h0]
    exact ⟨b.wf_e8, ofRm_eq hb hop rfl h0.symm code_e8 rfl⟩
  by_cases h1 : b.reg = 1
  · rw [group4, h1]
    exact ⟨b.wf_e8, ofRm_eq hb hop rfl h1.symm code_e8 rfl⟩
  have hr : 2 ≤ b.reg.toNat := (Nat.two_le_iff _).2 ⟨fun h => h0 (BitVec.eq_of_toNat_eq h), fun h => h1 (BitVec.eq_of_toNat_eq h)⟩
  rw [group4_invalid hr]
  exact ⟨Bool.and_eq_true_iff.2 ⟨b.wf_e8, decide_eq_true hr⟩, ofRm_eq hb hop rfl rfl code_e8 rfl⟩

theorem spells_group5 (hop : b.op = 0xFF) : b.Spells (group5 b) := by
  obtain hr | hr | hr | hr | hr | hr | hr | hr := code_cases b.reg
  all_goals rw [group5, hr]
  case inr.inr.inr.inl | inr.inr.inr.inr.inr.inl =>
    exact spells_ite_mod (fun h => ⟨rfl, ofRm_eq hb hop rfl hr.symm (code_rmReg16 h) rfl⟩)
      fun h => ⟨b.wf_mem, ofRm_eq hb hop rfl hr.symm (code_mem h) rfl⟩
  all_goals exact ⟨b.wf_e16, ofRm_eq hb hop rfl hr.symm code_e16 rfl⟩


/-! ### Every opcode -/

theorem spells_movEwSw (hop : b.op = 0x8C) :
    b.Spells (if b.reg.toNat < 4 then .movEwSw b.e16 b.sreg else .inv8C (b.reg.setWidth 2) b.e16) := by
  split
  next hr => exact ⟨b.wf_e16, ofRm_eq hb hop rfl (append_code_sreg hr) code_e16 rfl⟩
  next hr => exact ⟨b.wf_e16, ofRm_eq hb hop rfl (append_setWidth _ hr) code_e16 rfl⟩

/-- Each opcode, by the shape of its row: the row's operands have as their codes the fields they were read from. -/
theorem spells_row : ∀ n : Nat, n < 256 → b.op = BitVec.ofNat 8 n → b.Spells (row (BitVec.ofNat 8 n) b) := by
  intro n
  match n with
  | 0x00 | 0x08 | 0x10 | 0x18 | 0x20 | 0x28 | 0x30 | 0x38 | 0x84 | 0x86 | 0x88 =>
    exact fun _ hop => ⟨b.wf_e8, ofRm_eq hb hop rfl b.code_g8 code_e8 rfl⟩
  | 0x01 | 0x09 | 0x11 | 0x19 | 0x21 | 0x29 | 0x31 | 0x39 | 0x85 | 0x87 | 0x89 =>
    exact fun _ hop => ⟨b.wf_e16, ofRm_eq hb hop rfl b.code_g16 code_e16 rfl⟩
  | 0x02 | 0x0A | 0x12 | 0x1A | 0x22 | 0x2A | 0x32 | 0x3A | 0x8A =>
    exact fun _ hop => ⟨b.wf_e8, ofRm_eq hb hop rfl b.code_g8 code_e8 rfl⟩
  | 0x03 | 0x0B | 0x13 | 0x1B | 0x23 | 0x2B | 0x33 | 0x3B | 0x8B =>
    exact fun _ hop => ⟨b.wf_e16, ofRm_eq hb hop rfl b.code_g16 code_e16 rfl⟩
  | 0x04 | 0x0C | 0x14 | 0x1C | 0x24 | 0x2C | 0x34 | 0x3C | 0xA8
  | 0x70 | 0x71 | 0x72 | 0x73 | 0x74 | 0x75 | 0x76 | 0x77 | 0x78 | 0x79 | 0x7A | 0x7B | 0x7C | 0x7D | 0x7E | 0x7F
  | 0xCD | 0xD4 | 0xD5 | 0xE0 | 0xE1 | 0xE2 | 0xE3 | 0xE4 | 0xE5 | 0xE6 | 0xE7 | 0xEB =>
    exact fun _ hop => ⟨rfl, plain_eq_ib hb hop rfl rfl⟩
  | 0x05 | 0x0D | 0x15 | 0x1D | 0x25 | 0x2D | 0x35 | 0x3D | 0xA9 | 0xA0 | 0xA1 | 0xA2 | 0xA3 | 0xC2 | 0xCA | 0xE8 | 0xE9 =>
    exact fun _ hop => ⟨rfl, plain_eq_iw hb hop rfl rfl⟩
  | 0x9A | 0xEA => exact fun _ hop => ⟨rfl, plain_eq_far hb hop rfl⟩
  | 0x40 | 0x41 | 0x42 | 0x43 | 0x44 | 0x45 | 0x46 | 0x47 | 0x48 | 0x49 | 0x4A | 0x4B | 0x4C | 0x4D | 0x4E | 0x4F
  | 0x50 | 0x51 | 0x52 | 0x53 | 0x54 | 0x55 | 0x56 | 0x57 | 0x58 | 0x59 | 0x5A | 0x5B | 0x5C | 0x5D | 0x5E | 0x5F =>
    exact fun _ hop => ⟨rfl, (congrArg plain (or_code_lowReg16 hop rfl)).trans (plain_eq hb hop rfl rfl)⟩
  | 0x60 | 0x61 | 0x62 | 0x63 | 0x64 | 0x65 | 0x66 | 0x67 | 0x68 | 0x69 | 0x6A | 0x6B | 0x6C | 0x6D | 0x6E | 0x6F =>
    exact fun _ hop => ⟨rfl, (congrArg plain (or_setWidth_low hop rfl)).trans (plain_eq hb hop rfl rfl)⟩
  | 0x80 => exact fun _ => spells_group1Eb hb
  | 0x81 => exact fun _ => spells_group1EvIw hb
  | 0x83 => exact fun _ => spells_group1EvSib hb
  | 0x8E => exact fun _ => spells_movSreg hb
  | 0x8F => exact fun _ => spells_popGroup hb
  | 0xC6 => exact fun _ => spells_movGroupEb hb
  | 0xC7 => exact fun _ => spells_movGroupEv hb
  | 0xD0 => exact fun _ => spells_group2Eb1 hb
  | 0xD1 => exact fun _ => spells_group2Ev1 hb
  | 0xD2 => exact fun _ => spells_group2EbCl hb
  | 0xD3 => exact fun _ => spells_group2EvCl hb
  | 0xF6 => exact fun _ => spells_group3Eb hb
  | 0xF7 => exact fun _ => spells_group3Ev hb
  | 0xFE => exact fun _ => spells_group4 hb
  | 0xFF => exact fun _ => spells_group5 hb
  | 0x8C => exact fun _ => spells_movEwSw hb
  | 0x8D | 0xC4 | 0xC5 =>
    exact fun _ hop => spells_ite_mod (fun h => ⟨rfl, ofRm_eq hb hop rfl b.code_g16 (code_rmReg16 h) rfl⟩)
      fun h => ⟨b.wf_mem, ofRm_eq hb hop rfl b.code_g16 (code_mem h) rfl⟩
  | 0x91 | 0x92 | 0x93 | 0x94 | 0x95 | 0x96 | 0x97 =>
    exact fun _ hop => ⟨lowReg16_ne_ax hop (by decide), (congrArg plain (or_code_lowReg16 hop rfl)).trans (plain_eq hb hop rfl rfl)⟩
  | 0xB0 | 0xB1 | 0xB2 | 0xB3 | 0xB4 | 0xB5 | 0xB6 | 0xB7 =>
    exact fun _ hop => ⟨rfl, (congrArg (plain · _) (or_code_lowReg8 hop rfl)).trans (plain_eq_ib hb hop rfl rfl)⟩
  | 0xB8 | 0xB9 | 0xBA | 0xBB | 0xBC | 0xBD | 0xBE | 0xBF =>
    exact fun _ hop => ⟨rfl, (congrArg (plain · _) (or_code_lowReg16 hop rfl)).trans (plain_eq_iw hb hop rfl rfl)⟩
  | 0xD8 | 0xD9 | 0xDA | 0xDB | 0xDC | 0xDD | 0xDE | 0xDF =>
    exact fun _ hop => ⟨b.wf_e16, (congrArg (ofRm · _ _) (or_setWidth_low hop rfl)).trans (ofRm_eq hb hop rfl rfl code_e16 rfl)⟩
  | 0x06 | 0x07 | 0x0E | 0x0F | 0x16 | 0x17 | 0x1E | 0x1F | 0x26 | 0x27 | 0x2E | 0x2F | 0x36 | 0x37 | 0x3E | 0x3F | 0x82 | 0x90
  | 0x98 | 0x99 | 0x9B | 0x9C | 0x9D | 0x9E | 0x9F | 0xA4 | 0xA5 | 0xA6 | 0xA7 | 0xAA | 0xAB | 0xAC | 0xAD | 0xAE | 0xAF
  | 0xC0 | 0xC1 | 0xC3 | 0xC8 | 0xC9 | 0xCB | 0xCC | 0xCE | 0xCF | 0xD6 | 0xD7 | 0xEC | 0xED | 0xEE | 0xEF
  | 0xF0 | 0xF1 | 0xF2 | 0xF3 | 0xF4 | 0xF5 | 0xF8 | 0xF9 | 0xFA | 0xFB | 0xFC | 0xFD =>
    exact fun _ hop => ⟨rfl, plain_eq hb hop rfl rfl⟩
  | n + 256 => exact fun h => absurd h (by omega)

theorem spells_instr : b.Spells b.instr := by
  have hop : BitVec.ofNat 8 b.op.toNat = b.op := by rw [BitVec.ofNat_toNat, BitVec.setWidth_eq]
  have hrow := spells_row hb b.op.toNat b.op.isLt hop.symm
  rwa [hop, ← instr_eq_row] at hrow

end
end Body

end Sys2Proof
end

section
/-! SUPPORT. The length of an encoding, and what the encoding obligations state. -/

namespace Sys2Proof

/-! ### Length (30_encoding.md R130) -/

/-- The mod/reg/rm byte matters to the length of the immediate only by whether its reg field is 0. -/
theorem immLen_congr (op : Byte) {m m' : Byte} (h : regField m = 0 ↔ regField m' = 0) : immLen op m = immLen op m' := by
  simp only [immLen, h]

/-- Only a far pointer has more than two bytes of immediate, and its opcodes have no mod/reg/rm byte. -/
theorem immLen_le_two_or (op modrm : Byte) : immLen op modrm ≤ 2 ∨ hasModrm op = false ∧ immLen op modrm = 4 := by
  by_cases h : regField modrm = 0
  · rw [immLen_congr op (m' := 0) (iff_of_true h rfl)]
    revert op
    decide
  · rw [immLen_congr op (m' := 0x08) (iff_of_false h (by decide))]
    revert op
    decide

/-- The number of bytes after the opcode, in the order `parse` takes them. -/
def fieldsLen (op modrm : Byte) : Nat :=
  (modrmBytes op modrm).length + (min (dispLenOf op modrm) 2 + (min (immLen1 op modrm) 2 + min (immLen2 op modrm) 2))

theorem fieldsLen_le (op modrm : Byte) : fieldsLen op modrm ≤ 5 := by
  unfold fieldsLen modrmBytes dispLenOf immLen1 immLen2
  obtain h | ⟨hm, h⟩ := immLen_le_two_or op modrm
  · rw [Nat.sub_eq_zero_of_le h]
    split
    all_goals
      simp only [List.length_cons, List.length_nil]
      omega
  · simp [hm, h]

theorem Body.length_bytes (b : Body) : b.bytes.length = fieldsLen b.op b.modrm + 1 := by
  simp [Body.bytes_eq, length_fieldBytes, fieldsLen]

theorem exists_takeField {n k : Nat} {bytes : List Byte} (h : min n 2 + k ≤ bytes.length) :
    ∃ v rest, takeField n bytes = .ok (v, rest) ∧ k ≤ rest.length := by
  match n, bytes, h with
  | 0, bytes, h => exact ⟨_, _, rfl, by omega⟩
  | 1, lo :: bytes, h => exact ⟨_, _, rfl, by rw [List.length_cons] at h; omega⟩
  | 1, [], h | n + 2, [], h => exact absurd h (by simp)
  | n + 2, [b], h => exact absurd h (by simp; omega)
  | n + 2, lo :: hi :: bytes, h => exact ⟨_, _, rfl, by rw [List.length_cons, List.length_cons] at h; omega⟩

theorem exists_takeModrm {op : Byte} {bytes : List Byte} (h : 5 ≤ bytes.length) :
    ∃ modrm rest, takeModrm op bytes = .ok (modrm, rest) ∧ bytes.length = (modrmBytes op modrm).length + rest.length := by
  unfold takeModrm modrmBytes
  cases hasModrm op with
  | false => exact ⟨0, bytes, rfl, by simp⟩
  | true =>
    cases bytes with
    | nil => cases h
    | cons modrm rest => exact ⟨modrm, rest, rfl, by simp [Nat.add_comm]⟩

theorem exists_parse {bytes : List Byte} (h : 6 ≤ bytes.length) : ∃ b rest, parse bytes = .ok (b, rest) := by
  cases bytes with
  | nil => cases h
  | cons op bytes =>
    have h5 : 5 ≤ bytes.length := Nat.le_of_succ_le_succ h
    obtain ⟨modrm, bytes₁, hm, hlen⟩ := exists_takeModrm (op := op) h5
    have hfields := fieldsLen_le op modrm
    unfold fieldsLen at hfields
    obtain ⟨disp, bytes₂, hd, hlen₂⟩ := exists_takeField (bytes := bytes₁) (Nat.le_of_add_le_add_left ((hfields.trans h5).trans hlen.le))
    obtain ⟨imm, bytes₃, hi, hlen₃⟩ := exists_takeField hlen₂
    obtain ⟨seg, rest, hs, -⟩ := exists_takeField (k := 0) hlen₃
    exact ⟨⟨op, modrm, disp, imm, seg⟩, rest, parse_cons_eq_ok_iff.2 ⟨rfl, _, _, _, hm, hd, hi, hs⟩⟩

/-! ### The obligations -/

/-- Settles O3: an opcode and at most five bytes of fields (`fieldsLen_le`); with five bytes no field runs short (`exists_parse`). -/
theorem everyByteSequenceDecodes : Obligations.EveryByteSequenceDecodes := by
  unfold Obligations.EveryByteSequenceDecodes
  refine ⟨fun i => ?_, fun bytes h => ?_⟩
  · have hlen : (encode i).length = _ := i.body.length_bytes
    have hle := fieldsLen_le i.body.op i.body.modrm
    omega
  · obtain ⟨b, rest, hb⟩ := exists_parse h
    exact ⟨b.instr, rest, by rw [decode, hb]⟩

/-- Settles O1: the encoder's fields fit (`fits_body`), so that they parse from their bytes, and they spell the instruction (`instr_body`). -/
theorem encodedInstructionDecodesBack : Obligations.EncodedInstructionDecodesBack := by
  unfold Obligations.EncodedInstructionDecodesBack
  exact fun i rest h => decode_eq_ok_iff.2 ⟨i.body, i.fits_body, rfl, Instr.instr_body h⟩

/-- Settles O2: what parses is the bytes of fields that fit, and such fields are those the encoder writes for what they spell (`spells_instr`). -/
theorem decodedBytesEncodeBack : Obligations.DecodedBytesEncodeBack := by
  unfold Obligations.DecodedBytesEncodeBack
  intro bytes rest i h
  obtain ⟨b, hb, hbytes, rfl⟩ := decode_eq_ok_iff.1 h
  obtain ⟨hwf, hbody⟩ := Body.spells_instr hb
  exact ⟨hwf, (congrArg (·.bytes ++ rest) hbody).trans hbytes⟩

/-- Settles O4: each word, evaluated. -/
theorem wordsDecodeAsTheSpecSays : Obligations.WordsDecodeAsTheSpecSays := by
  unfold Obligations.WordsDecodeAsTheSpecSays
  exact ⟨rfl, rfl, rfl, rfl, rfl, rfl, rfl, rfl, rfl, rfl, rfl, rfl, rfl, rfl, rfl, rfl, rfl, rfl, rfl, rfl, rfl, rfl, rfl, rfl, rfl⟩

end Sys2Proof
end

section
/-! SUPPORT. The effective address (30_encoding.md R142-R145). -/

namespace Sys2Proof.Machine

theorem segOr_override (r : SReg) {o : SReg} {s : State} (h : s.segOverride = some o) : segOr r s = s.sreg o := by
  simp only [segOr, h]

theorem segOr_default (r : SReg) {s : State} (h : s.segOverride = none) : segOr r s = s.sreg r := by
  simp only [segOr, h]

theorem resolve_default (m : MemOp) {s : State} (h : s.segOverride = none) :
    resolve m s = (s.sreg (defaultSeg m), offsetOf m s) := Prod.ext (segOr_default _ h) rfl

theorem memAddr_none (m : MemOp) {s : State} (h : s.ea = none) : memAddr m s = resolve m s := by rw [memAddr, h]; rfl

theorem memAddr_some (m : MemOp) {s : State} {a : Word × Word} (h : s.ea = some a) : memAddr m s = a := by rw [memAddr, h]; rfl

/-- Settles O35: `memAddr` is `ea` where it is set and `resolve` otherwise; `resolve` is the override's segment or the default one, and the sum
of 30_encoding.md R143 by definition. -/
theorem effectiveAddress : Obligations.EffectiveAddress := by
  unfold Obligations.EffectiveAddress
  intro s d d8
  refine ⟨fun _ => rfl, fun _ => rfl, fun m h => ?_, fun m seg off h => ?_, fun m r h => segOr_override _ h,
    ⟨rfl, rfl, rfl, rfl, rfl, rfl, rfl, rfl, rfl⟩, fun h => ?_, fun b => ?_, fun b => ?_⟩
  · simp only [locate8, locate16, memAddr_none m h, and_self]
  · simp only [locate8, locate16, memAddr_some m h, and_self]
  · exact ⟨resolve_default _ h, resolve_default _ h, resolve_default _ h, resolve_default _ h, resolve_default _ h,
      resolve_default _ h, resolve_default _ h, resolve_default _ h, resolve_default _ h, resolve_default _ h⟩
  · rfl
  · rfl

end Sys2Proof.Machine
end

section
/-! SUPPORT. The fetch under the quiet host (40_pipeline.md R201; 30_encoding.md R130): the code bytes at CS:IP, what fetching them changes, and
what the fetch of one instruction answers. -/

namespace Sys2Proof.Machine

/-! ### The code bytes -/

theorem State.length_codeBytes (s : State) (n : Nat) (off : Word) : (s.codeBytes n off).length = n := by
  induction n generalizing off with
  | zero => rfl
  | succ n ih => rw [State.codeBytes, List.length_cons, ih]

theorem add_ofNat_add (off : Word) (m n : Nat) : off + BitVec.ofNat 16 (m + n) = off + BitVec.ofNat 16 m + BitVec.ofNat 16 n := by
  rw [BitVec.ofNat_add, BitVec.add_assoc]

theorem add_one_add_ofNat (off : Word) (n : Nat) : off + 1 + BitVec.ofNat 16 n = off + BitVec.ofNat 16 (n + 1) := by
  rw [Nat.add_comm n 1, add_ofNat_add]
  rfl

theorem State.codeBytes_add (s : State) (m n : Nat) (off : Word) :
    s.codeBytes (m + n) off = s.codeBytes m off ++ s.codeBytes n (off + BitVec.ofNat 16 m) := by
  induction m generalizing off with
  | zero => simp [State.codeBytes]
  | succ m ih => rw [Nat.succ_add, State.codeBytes, ih, State.codeBytes, List.cons_append, add_one_add_ofNat]

/-- The bytes stand in the code segment from an offset on (20_memory.md R96). -/
def State.HasCode (s : State) (bytes : List Byte) (off : Word) : Prop := s.codeBytes bytes.length off = bytes

theorem hasCode_cons {s : State} {b : Byte} {bytes : List Byte} {off : Word} :
    s.HasCode (b :: bytes) off ↔ s.peek (lin (s.sreg .cs) off) = b ∧ s.HasCode bytes (off + 1) := List.cons_eq_cons

theorem hasCode_append {s : State} {bytes bytes' : List Byte} {off : Word} :
    s.HasCode (bytes ++ bytes') off ↔ s.HasCode bytes off ∧ s.HasCode bytes' (off + BitVec.ofNat 16 bytes.length) := by
  unfold State.HasCode
  rw [List.length_append, State.codeBytes_add]
  exact ⟨fun h => List.append_inj h (State.length_codeBytes ..), fun ⟨h, h'⟩ => by rw [h, h']⟩

/-- What stands at an offset begins with what a longer run of bytes there begins with. -/
theorem hasCode_of_append_eq {s : State} {bytes rest : List Byte} {n : Nat} {off : Word} (h : bytes ++ rest = s.codeBytes n off) :
    s.HasCode bytes off := by
  have hn : n = (bytes ++ rest).length := by rw [h, State.length_codeBytes]
  exact (hasCode_append.1 (by rw [State.HasCode, ← hn, h])).1

theorem executableAt_append {s : State} {bytes bytes' : List Byte} {off : Word} (h : executableAt s (bytes ++ bytes') off) :
    executableAt s bytes off ∧ executableAt s bytes' (off + BitVec.ofNat 16 bytes.length) := by
  induction bytes generalizing off with
  | nil => exact ⟨trivial, by simpa using h⟩
  | cons b bytes ih =>
    obtain ⟨h1, h2⟩ := h
    obtain ⟨h3, h4⟩ := ih h2
    exact ⟨⟨h1, h3⟩, by rwa [List.length_cons, ← add_one_add_ofNat]⟩

/-- Two states with the same code and the same permissions to execute it. -/
structure SameCode (s t : State) : Prop where
  mem : t.mem = s.mem
  perm : t.perm = s.perm
  sregs : t.sregs = s.sregs

theorem SameCode.codeBytes {s t : State} (h : SameCode s t) (n : Nat) (off : Word) : t.codeBytes n off = s.codeBytes n off := by
  induction n generalizing off with
  | zero => rfl
  | succ n ih => rw [State.codeBytes, State.codeBytes, ih, State.peek, State.peek, State.sreg, State.sreg, h.mem, h.sregs]

theorem SameCode.hasCode {s t : State} (h : SameCode s t) {bytes : List Byte} {off : Word} :
    t.HasCode bytes off ↔ s.HasCode bytes off := by rw [State.HasCode, State.HasCode, h.codeBytes]

theorem SameCode.executableAt {s t : State} (h : SameCode s t) {bytes : List Byte} {off : Word} :
    executableAt t bytes off ↔ executableAt s bytes off := by
  induction bytes generalizing off with
  | nil => exact Iff.rfl
  | cons b bytes ih =>
    exact and_congr (by rw [State.allows, State.allows, State.permAt, State.permAt, State.sreg, State.sreg, h.perm, h.sregs]) ih

/-! ### What fetching bytes changes -/

/-- The state `s` with `bytes` fetched: IP is past them, they have joined the bytes of the step, and the host's script and the record of its
calls are those given. -/
def State.consuming (s : State) (bytes : List Byte) (host : List HostReply) (calls : List HostCall) : State :=
  { s with ip := s.ip + BitVec.ofNat 16 bytes.length, stepBytes := s.stepBytes ++ bytes, host, calls }

theorem State.consuming_consuming (s : State) (bytes bytes' : List Byte) (host host' : List HostReply) (calls calls' : List HostCall) :
    (s.consuming bytes host calls).consuming bytes' host' calls' = s.consuming (bytes ++ bytes') host' calls' := by
  simp only [State.consuming, List.length_append, List.append_assoc, add_ofNat_add]

theorem sameCode_consuming (s : State) (bytes : List Byte) (host : List HostReply) (calls : List HostCall) :
    SameCode s (s.consuming bytes host calls) := ⟨rfl, rfl, rfl⟩

/-- `t` is `s` with `bytes` fetched and the host still quiet; where all of them may be executed the host has heard of `hooks` and nothing
else (40_pipeline.md R201). -/
def Consumed (bytes : List Byte) (hooks : List HostCall) (s t : State) : Prop :=
  ∃ host calls, t = s.consuming bytes host calls ∧ Quiet t ∧ (executableAt s bytes s.ip → calls = hooks.reverse ++ s.calls)

section
variable {bytes bytes' : List Byte} {hooks hooks' : List HostCall} {s t u : State}

theorem Consumed.quiet (h : Consumed bytes hooks s t) : Quiet t := by
  obtain ⟨_, _, _, hq, _⟩ := h
  exact hq

theorem Consumed.ip (h : Consumed bytes hooks s t) : t.ip = s.ip + BitVec.ofNat 16 bytes.length := by
  obtain ⟨_, _, rfl, _, _⟩ := h
  rfl

theorem Consumed.instructionCount (h : Consumed bytes hooks s t) : t.instructionCount = s.instructionCount := by
  obtain ⟨_, _, rfl, _, _⟩ := h
  rfl

/-- The bytes after those fetched stand at the new IP. -/
theorem Consumed.hasCode (h : Consumed bytes hooks s t) (hc : s.HasCode (bytes ++ bytes') s.ip) : t.HasCode bytes' t.ip := by
  rw [h.ip]
  obtain ⟨_, _, rfl, _, _⟩ := h
  exact (sameCode_consuming ..).hasCode.2 (hasCode_append.1 hc).2

theorem Consumed.refl (hs : Quiet s) : Consumed [] [] s s :=
  ⟨s.host, s.calls, by simp [State.consuming], hs, fun _ => rfl⟩

theorem Consumed.trans (h : Consumed bytes hooks s t) (k : Consumed bytes' hooks' t u) :
    Consumed (bytes ++ bytes') (hooks ++ hooks') s u := by
  obtain ⟨host, calls, rfl, _, hcalls⟩ := h
  obtain ⟨host', calls', rfl, hq, hcalls'⟩ := k
  refine ⟨host', calls', State.consuming_consuming .., hq, fun hx => ?_⟩
  obtain ⟨hx1, hx2⟩ := executableAt_append hx
  rw [hcalls' ((sameCode_consuming ..).executableAt.2 hx2), List.reverse_append, List.append_assoc, ← hcalls hx1]
  rfl

/-- A hook call (60_exceptions.md R600, R601). -/
theorem Consumed.told (h : Consumed bytes hooks s t) (c : HostCall) : Consumed bytes (hooks ++ [c]) s (t.told c) := by
  obtain ⟨host, calls, rfl, hq, hcalls⟩ := h
  exact ⟨host.tail, c :: calls, rfl, quiet_told c hq, fun hx => by rw [hcalls hx, List.reverse_append]; rfl⟩

/-- An update of the transient state may be made before or after a fetch that it does not change. -/
theorem Consumed.update {f : State → State} (h : Consumed bytes hooks s t)
    (hf : ∀ host calls, f (s.consuming bytes host calls) = (f s).consuming bytes host calls) (hcode : SameCode s (f s))
    (hip : (f s).ip = s.ip) (hcalls : (f s).calls = s.calls) : Consumed bytes hooks (f s) (f t) := by
  obtain ⟨host, calls, rfl, hq, hc⟩ := h
  refine ⟨host, calls, hf host calls, ?_, fun hx => ?_⟩
  · rw [hf]; exact hq
  · rw [hip] at hx
    rw [hcalls]
    exact hc (hcode.executableAt.1 hx)

theorem Consumed.opcodeFetched (h : Consumed bytes hooks s t) (op : Byte) :
    Consumed bytes hooks (s.opcodeFetched op) (t.opcodeFetched op) := by
  unfold State.opcodeFetched
  split
  · exact h
  · exact h.update (f := fun s => { s with runState := .fetchedOpcode }) (fun _ _ => rfl) ⟨rfl, rfl, rfl⟩ rfl rfl

theorem Consumed.latchEa (h : Consumed bytes hooks s t) (op modrm : Byte) (disp : Word) :
    Consumed bytes hooks (s.latchEa op modrm disp) (t.latchEa op modrm disp) := by
  unfold State.latchEa
  split
  · exact h.update (f := fun s => { s with
      ea := if modField modrm = 3 then s.ea else some (resolve (MemOp.ofFields (modField modrm) (rmField modrm) disp) s)
      segOverride := none }) (fun _ _ => rfl) ⟨rfl, rfl, rfl⟩ rfl rfl
  · exact h

/-! ### Fetching the fields of an instruction -/

/-- An instruction-stream byte: a missing permission is reported, and the fetch goes on (20_memory.md R90; 40_pipeline.md R201). -/
theorem fetchNext_quiet {b : Byte} (hs : Quiet s) (hc : s.HasCode [b] s.ip) : ∃ t, fetchNext s = .next (b, t) ∧ Consumed [b] [] s t := by
  obtain ⟨hb, _⟩ := hasCode_cons.1 hc
  refine ⟨(s.checked .execute (lin (s.sreg .cs) s.ip)).stepPast b, ?_, ?_⟩
  · rw [fetchNext, fetchByte_quiet _ hs, thenWith_next, hb]
  · refine ⟨(s.checked .execute (lin (s.sreg .cs) s.ip)).host, (s.checked .execute (lin (s.sreg .cs) s.ip)).calls, ?_,
      quiet_checked _ _ hs, fun hx => ?_⟩
    · unfold State.checked
      split <;> rfl
    · rw [State.checked, if_pos hx.1]
      rfl

theorem fetch8_quiet {b : Byte} (hs : Quiet s) (hc : s.HasCode [b] s.ip) :
    ∃ t, fetch8 s = .next (b, t) ∧ Consumed [b] [.fetched8 b s.instructionCount] s t := by
  obtain ⟨t, hf, ht⟩ := fetchNext_quiet hs hc
  refine ⟨_, ?_, ht.told _⟩
  rw [fetch8, hf, thenWith_next, callHost_quiet _ ht.quiet, thenDo_next, ht.instructionCount]

theorem fetch16_quiet {v : Word} (hs : Quiet s) (hc : s.HasCode [loByte v, hiByte v] s.ip) :
    ∃ t, fetch16 s = .next (v, t) ∧ Consumed [loByte v, hiByte v] [.fetched16 v s.instructionCount] s t := by
  obtain ⟨t, hf, ht⟩ := fetchNext_quiet hs ((hasCode_append (bytes := [loByte v])).1 hc).1
  obtain ⟨u, hf', hu⟩ := fetchNext_quiet ht.quiet (ht.hasCode hc)
  have htu := ht.trans hu
  refine ⟨_, ?_, htu.told _⟩
  rw [fetch16, hf, thenWith_next, hf', thenWith_next, wordOf_halves, callHost_quiet _ htu.quiet, thenDo_next, htu.instructionCount]

/-- A field of 0, 1 or 2 bytes. -/
theorem fetchField_quiet {n : Nat} {v : Word} (hv : FieldFits n v) (hs : Quiet s) (hc : s.HasCode (fieldBytes n v) s.ip) :
    ∃ t, fetchField n s = .next (v, t) ∧ Consumed (fieldBytes n v) (fieldCall s.instructionCount n v) s t := by
  match n with
  | 0 =>
    rw [fieldFits_zero_iff.1 hv]
    exact ⟨s, rfl, .refl hs⟩
  | 1 =>
    obtain ⟨t, hf, ht⟩ := fetch8_quiet hs hc
    exact ⟨t, by rw [fetchField, hf, thenWith_next, zext16_loByte hv], ht⟩
  | _ + 2 => exact fetch16_quiet hs hc

/-- The hook call for the mod/reg/rm byte, where the opcode has one. -/
def modrmCalls (count : BitVec 64) (op modrm : Byte) : List HostCall := if hasModrm op then [.fetched8 modrm count] else []

theorem fetchModrm_quiet {op modrm : Byte} (hm : hasModrm op = false → modrm = 0) (hs : Quiet s)
    (hc : s.HasCode (modrmBytes op modrm) s.ip) :
    ∃ t, fetchModrm op s = .next (modrm, t) ∧ Consumed (modrmBytes op modrm) (modrmCalls s.instructionCount op modrm) s t := by
  unfold fetchModrm
  unfold modrmBytes at hc ⊢
  unfold modrmCalls
  cases h : hasModrm op with
  | false => exact ⟨s, by rw [hm h]; rfl, .refl hs⟩
  | true =>
    rw [h] at hc
    exact fetch8_quiet hs hc

end

/-! ### Fetching an instruction -/

/-- The state `s` with the instruction decoded: an opcode that is none of the prefixes fetched, E resolved and the override consumed
(30_encoding.md R145, R149). -/
def State.decoded (s : State) (i : Instr) : State := (s.opcodeFetched i.body.op).latchEa i.body.op i.body.modrm i.body.disp

theorem sameCode_opcodeFetched (s : State) (op : Byte) : SameCode s (s.opcodeFetched op) := by
  unfold State.opcodeFetched
  split <;> exact ⟨rfl, rfl, rfl⟩

theorem sameCode_latchEa (s : State) (op modrm : Byte) (disp : Word) : SameCode s (s.latchEa op modrm disp) := by
  unfold State.latchEa
  split <;> exact ⟨rfl, rfl, rfl⟩

theorem State.opcodeFetched_ip (s : State) (op : Byte) : (s.opcodeFetched op).ip = s.ip := by
  unfold State.opcodeFetched
  split <;> rfl

theorem State.latchEa_ip (s : State) (op modrm : Byte) (disp : Word) : (s.latchEa op modrm disp).ip = s.ip := by
  unfold State.latchEa
  split <;> rfl

theorem hasCode_opcodeFetched {s : State} {op : Byte} {bytes : List Byte} :
    (s.opcodeFetched op).HasCode bytes (s.opcodeFetched op).ip ↔ s.HasCode bytes s.ip := by
  rw [State.opcodeFetched_ip, (sameCode_opcodeFetched s op).hasCode]

theorem hasCode_latchEa {s : State} {op modrm : Byte} {disp : Word} {bytes : List Byte} :
    (s.latchEa op modrm disp).HasCode bytes (s.latchEa op modrm disp).ip ↔ s.HasCode bytes s.ip := by
  rw [State.latchEa_ip, (sameCode_latchEa s op modrm disp).hasCode]

theorem State.opcodeFetched_instructionCount (s : State) (op : Byte) : (s.opcodeFetched op).instructionCount = s.instructionCount :=
  (kept_opcodeFetched s op).instructionCount

theorem State.latchEa_instructionCount (s : State) (op modrm : Byte) (disp : Word) :
    (s.latchEa op modrm disp).instructionCount = s.instructionCount := (kept_latchEa s op modrm disp).instructionCount

/-- The bytes of an instruction at CS:IP are fetched field by field, and E is resolved between the displacement and the immediate, which
gives the same state as resolving it before (30_encoding.md R149). -/
theorem fetchBody_quiet {i : Instr} {s : State} (hs : Quiet s) (hc : s.HasCode (encode i) s.ip) :
    ∃ t, fetchBody s = .next (i.body, t) ∧ Consumed (encode i) (i.fetchCalls s.instructionCount) (s.decoded i) t := by
  have fits := i.fits_body
  have toImm := (hasCode_append.1 hc).1
  have toDisp := (hasCode_append.1 toImm).1
  have toModrm := (hasCode_append.1 toDisp).1
  obtain ⟨s₁, hf₁, h₁⟩ := fetch8_quiet hs ((hasCode_append (bytes := [i.body.op])).1 toModrm).1
  replace h₁ := h₁.opcodeFetched i.body.op
  obtain ⟨s₂, hf₂, h₂⟩ := fetchModrm_quiet fits.modrm h₁.quiet (h₁.hasCode (hasCode_opcodeFetched.2 toModrm))
  replace h₂ := h₁.trans h₂
  obtain ⟨s₃, hf₃, h₃⟩ := fetchField_quiet fits.disp h₂.quiet (h₂.hasCode (hasCode_opcodeFetched.2 toDisp))
  replace h₃ := (h₂.trans h₃).latchEa i.body.op i.body.modrm i.body.disp
  obtain ⟨s₄, hf₄, h₄⟩ := fetchField_quiet fits.imm h₃.quiet (h₃.hasCode (hasCode_latchEa.2 (hasCode_opcodeFetched.2 toImm)))
  replace h₄ := h₃.trans h₄
  obtain ⟨s₅, hf₅, h₅⟩ := fetchField_quiet fits.seg h₄.quiet (h₄.hasCode (hasCode_latchEa.2 (hasCode_opcodeFetched.2 hc)))
  refine ⟨s₅, ?_, ?_⟩
  · rw [fetchBody, hf₁, thenWith_next, hf₂, thenWith_next, hf₃, thenWith_next, hf₄, thenWith_next, hf₅, thenWith_next]
  · have all := h₄.trans h₅
    simp only [h₁.instructionCount, h₂.instructionCount, h₃.instructionCount, h₄.instructionCount, State.opcodeFetched_instructionCount,
      State.latchEa_instructionCount] at all
    exact all

end Sys2Proof.Machine
end

section
/-! SUPPORT. The step under the quiet host: its chain of prefixes sets the transient fields, and the instruction after it runs in the state
`Fetched` describes (40_pipeline.md R200-R207). -/

namespace Sys2Proof.Machine

/-! ### The chain of prefixes -/

/-- The state `s` with the transient fields the prefixes `ps` leave, at the start of a step (40_pipeline.md R203-R206; log entry 10). -/
def State.afterPrefixes (s : State) (ps : List Instr) : State :=
  { s with
    segOverride := chainOverride none ps, rep := (chainRepeat none ps).isSome, repeatWhile := (chainRepeat none ps).getD false
    lastPrefixRep := (ps.getLast? == some .rep) || (ps.getLast? == some .repne) }

theorem sameCode_afterPrefixes (s : State) (ps : List Instr) : SameCode s ((beginStep s).afterPrefixes ps) := ⟨rfl, rfl, rfl⟩

/-- One more after the prefixes `ps` leaves what `ps` and then it leave. -/
theorem exec_afterPrefixes {p : Instr} (hp : isPrefix p = true) (ps : List Instr) (s : State) :
    exec p (s.afterPrefixes ps) = .next (s.afterPrefixes (ps ++ [p])) := by
  cases p with
  | segEs | segCs | segSs | segDs | lock | repne | rep =>
    simp [execSegEs, execSegCs, execSegSs, execSegDs, execRepne, execRep, execLock, overridePrefix, repeatPrefix, State.afterPrefixes,
      chainOverride, chainRepeat, Instr.overrides]
  | _ => cases hp

theorem instr_body_of_isPrefix {p : Instr} (hp : isPrefix p = true) : p.body.instr = p := by
  refine Instr.instr_body ?_
  cases p with
  | segEs | segCs | segSs | segDs | lock | repne | rep => rfl
  | _ => cases hp

/-- One of the prefixes has no operand E and does not end the chain. -/
theorem State.decoded_of_isPrefix {p : Instr} (hp : isPrefix p = true) (s : State) : s.decoded p = s := by
  cases p with
  | segEs | segCs | segSs | segDs | lock | repne | rep => rfl
  | _ => cases hp

/-- The prefixes `ps` at CS:IP are fetched and run, each of them using up one of the bound on the chain. -/
theorem runChain_prefixes {s : State} (hs : Quiet s) (ps : List Instr) (hps : ∀ p ∈ ps, isPrefix p = true)
    (hc : s.HasCode (ps.flatMap encode) s.ip) :
    ∃ t, Consumed (ps.flatMap encode) (ps.flatMap (Instr.fetchCalls s.instructionCount)) ((beginStep s).afterPrefixes ps) t ∧
      ∀ n, runChain (ps.length + n) (beginStep s) = runChain n t := by
  induction ps using List.reverseRecOn with
  | nil => exact ⟨beginStep s, .refl hs, fun n => by rw [List.length_nil, Nat.zero_add]⟩
  | append_singleton ps p ih =>
    rw [List.flatMap_append, List.flatMap_singleton] at hc ⊢
    rw [List.flatMap_append, List.flatMap_singleton]
    have hp : isPrefix p = true := hps p (by simp)
    obtain ⟨t, ht, hrun⟩ := ih (fun q hq => hps q (List.mem_append_left _ hq)) (hasCode_append.1 hc).1
    have hct : t.HasCode (encode p) t.ip := ht.hasCode ((sameCode_afterPrefixes s ps).hasCode.2 hc)
    obtain ⟨u, hf, hu⟩ := fetchBody_quiet ht.quiet hct
    rw [State.decoded_of_isPrefix hp, ht.instructionCount] at hu
    have htu := ht.trans hu
    have hexec : exec p u = .next (u.afterPrefixes (ps ++ [p])) := by
      obtain ⟨host, calls, rfl, _⟩ := htu
      exact exec_afterPrefixes hp ps ((beginStep s).consuming (ps.flatMap encode ++ encode p) host calls)
    refine ⟨u.afterPrefixes (ps ++ [p]),
      htu.update (f := (·.afterPrefixes (ps ++ [p]))) (fun _ _ => rfl) ⟨rfl, rfl, rfl⟩ rfl rfl, fun n => ?_⟩
    rw [List.length_append, Nat.add_assoc, hrun, List.length_singleton, Nat.add_comm 1 n, runChain, hf, thenWith_next,
      instr_body_of_isPrefix hp, if_pos hp, hexec, thenDo_next]

/-! ### The instruction -/

theorem memOperand_of_no_modrm {i : Instr} (h : hasModrm i.body.op = false) : i.memOperand = none := by simp [Instr.memOperand, h]

theorem memOperand_of_register {i : Instr} (h : modField i.body.modrm = 3) : i.memOperand = none := by simp [Instr.memOperand, h]

theorem memOperand_of_memory {i : Instr} (hm : hasModrm i.body.op = true) (h : modField i.body.modrm ≠ 3) :
    i.memOperand = some i.body.mem := if_pos (by rw [hm, Bool.true_and, bne_iff_ne]; exact h)

/-- Decoding an instruction changes the run state, latches E and consumes the override (30_encoding.md R145; log entry 14). -/
theorem State.decoded_eq (s : State) (i : Instr) : s.decoded i =
    { s with
      runState := (s.opcodeFetched i.body.op).runState, ea := (i.memOperand.map (resolve · s)).or s.ea
      segOverride := if hasModrm i.body.op then none else s.segOverride } := by
  have hop : s.opcodeFetched i.body.op = { s with runState := (s.opcodeFetched i.body.op).runState } := by
    unfold State.opcodeFetched
    split <;> rfl
  rw [State.decoded, hop, State.latchEa]
  cases hm : hasModrm i.body.op with
  | false => rw [memOperand_of_no_modrm hm]; rfl
  | true =>
    by_cases h : modField i.body.modrm = 3
    · simp only [if_pos h, memOperand_of_register h]; rfl
    · simp only [if_neg h, memOperand_of_memory hm h]; rfl

theorem Consumed.decoded {bytes : List Byte} {hooks : List HostCall} {s t : State} (h : Consumed bytes hooks s t) (i : Instr) :
    Consumed bytes hooks (s.decoded i) (t.decoded i) := (h.opcodeFetched _).latchEa _ _ _

/-- What the prefixes `ps` and the instruction `i` leave, once fetched, is the state `Fetched` describes. -/
theorem Consumed.fetched {ps : List Instr} {i : Instr} {s u : State}
    (h : Consumed (chainBytes ps i) ((ps ++ [i]).flatMap (Instr.fetchCalls s.instructionCount)) (((beginStep s).afterPrefixes ps).decoded i) u) :
    Fetched ps i s (u.setRunState .executing) := by
  have code : SameCode s (((beginStep s).afterPrefixes ps).decoded i) := by
    rw [State.decoded_eq]
    exact ⟨rfl, rfl, rfl⟩
  rw [State.decoded_eq] at h code
  obtain ⟨host, calls, rfl, hq, hcalls⟩ := h
  exact {
    regs := rfl
    sregs := rfl
    flags := rfl
    mem := rfl
    perm := rfl
    singleStep := rfl
    instructionCount := rfl
    draws := rfl
    ip := rfl
    stepBytes := rfl
    runState := rfl
    raised := rfl
    segOverride := rfl
    rep := rfl
    repeatWhile := rfl
    lastPrefixRep := rfl
    ea := Option.or_none
    atInterrupt := rfl
    quiet := hq
    calls := fun hx => hcalls (code.executableAt.2 hx) }

theorem thenWith_thenDo_next {α β : Type} (o : Out) (a : α) (f : α → State → Host.Outcome β Fault Refusal) :
    thenWith (thenDo o fun s => .next (a, s)) f = thenDo o (f a) := by
  cases o <;> rfl

/-- Prefixes, as many as a code segment holds at most, and the instruction after it are one step (40_pipeline.md R205). -/
theorem step_chain {s : State} {ps : List Instr} {i : Instr} (hr : s.runState = .idle) (hs : Quiet s) (hw : i.wf = true)
    (hi : isPrefix i = false) (hps : ∀ p ∈ ps, isPrefix p = true) (hlen : ps.length ≤ 0x10000) (hc : s.HasCode (chainBytes ps i) s.ip) :
    ∃ u, Fetched ps i s u ∧ step s = thenDo (exec i u) (endStep (s.flag .TF) i) := by
  obtain ⟨t, ht, hrun⟩ := runChain_prefixes hs ps hps (hasCode_append.1 hc).1
  obtain ⟨u, hf, hu⟩ := fetchBody_quiet ht.quiet (ht.hasCode ((sameCode_afterPrefixes s ps).hasCode.2 hc))
  refine ⟨u.setRunState .executing, Consumed.fetched ?_, ?_⟩
  · rw [List.flatMap_append, List.flatMap_singleton]
    rw [ht.instructionCount] at hu
    exact (ht.decoded i).trans hu
  · obtain ⟨n, hn⟩ : ∃ n, chainBound s = ps.length + (n + 1) := ⟨s.host.length + 0x10000 - ps.length, by unfold chainBound; omega⟩
    unfold step
    rw [hr]
    dsimp only
    rw [hn, hrun, runChain, hf, thenWith_next, Instr.instr_body hw, hi, if_neg Bool.false_ne_true, thenWith_thenDo_next]

/-- Settles O6: the prefixes set the transient fields one after the other (`runChain_prefixes`), and the bound on the chain leaves room for the
instruction. -/
theorem prefixChainIsOneStep : Obligations.PrefixChainIsOneStep := by
  unfold Obligations.PrefixChainIsOneStep
  exact fun s ps i hr hs hw hi hps hlen hc => step_chain hr hs hw hi hps hlen hc

/-- Settles O5: bytes that decode to an instruction begin with its encoding, which is a chain of no prefixes. -/
theorem stepRunsDecodedInstruction : Obligations.StepRunsDecodedInstruction := by
  unfold Obligations.StepRunsDecodedInstruction
  intro s i rest hr hs hi hd
  obtain ⟨hw, hbytes⟩ := decodedBytesEncodeBack _ rest i hd
  exact step_chain hr hs hw hi (ps := []) (fun p hp => absurd hp List.not_mem_nil) (Nat.zero_le _) (hasCode_of_append_eq hbytes)

end Sys2Proof.Machine
end

section
/-! SUPPORT. The start and the end of a step, and where an instruction stops, under any host (40_pipeline.md R200, R220, R231;
60_exceptions.md R590). -/

namespace Sys2Proof.Machine

/-! ### The end of a step -/

theorem kept_exec {i : Instr} {s t : State} (h : exec i s = .next t) : Kept s t := by
  have k := runs_exec i s
  rw [h] at k
  exact k.resolve_right nofun

theorem kept_runChain {n : Nat} : ∀ {s t : State} {i : Instr}, runChain n s = .next (i, t) → Kept s t := by
  induction n with
  | zero => exact nofun
  | succ n ih =>
    intro s t i h
    obtain ⟨b, u, hb, h⟩ := thenWith_eq_next h
    have fetched := runs_fetchBody s
    rw [hb] at fetched
    split at h
    · obtain ⟨v, hv, h⟩ := thenDo_eq_next h
      exact Kept.trans fetched ((kept_exec hv).trans (ih h))
    · obtain ⟨v, hv, h⟩ := thenDo_eq_next h
      cases h
      exact Kept.trans fetched ((kept_setRunState u .executing).trans (kept_exec hv))

/-- The end of a step leaves Halted as it is; else the state is Idle and the counter has gone up (40_pipeline.md R220). -/
theorem endStep_counts {tf : Bool} {i : Instr} {s t : State} (h : endStep tf i s = .next t) :
    (t.runState = .idle ∧ t.instructionCount = s.instructionCount + 1) ∨
    (t.runState = .halted ∧ t.instructionCount = s.instructionCount) := by
  unfold endStep at h
  split at h
  · cases h
    exact .inr ⟨‹_›, rfl⟩
  · refine .inl ?_
    dsimp only at h
    split at h
    · have trap := runs_interrupt 1 (s.setRunState .idle).counted
      rw [h] at trap
      exact ⟨interrupt_runState h, Kept.instructionCount trap⟩
    · cases h
      exact ⟨rfl, rfl⟩

/-- Settles O8: the chain and its instruction keep the counter (`kept_runChain`), and the end of the step counts unless Halted. -/
theorem stepEndsIdleAndCountsOrHalted : Obligations.StepEndsIdleAndCountsOrHalted := by
  unfold Obligations.StepEndsIdleAndCountsOrHalted
  intro s t h
  unfold step at h
  split at h
  · obtain ⟨i, u, hu, h⟩ := thenWith_eq_next h
    have count : u.instructionCount = s.instructionCount := (kept_runChain hu).instructionCount
    rw [← count]
    exact endStep_counts h
  · cases h
  · cases h

/-- Settles O7: `step` runs the chain in the run state Idle only. -/
theorem stepNeedsIdle : Obligations.StepNeedsIdle := by
  unfold Obligations.StepNeedsIdle
  intro s
  cases h : s.runState <;> simp [step, h]

/-- MOV Sreg, E and POP Sreg, written out. -/
theorem loadsSReg_iff {i : Instr} : loadsSReg i = true ↔
    (∃ e, i = .movEsEw e ∨ i = .movSsEw e ∨ i = .movDsEw e) ∨ i = .popEs ∨ i = .popSs ∨ i = .popDs := by
  cases i <;> simp [loadsSReg]

/-- When the trap of vector 1 is taken (60_exceptions.md R590). -/
def trapsAt (tf : Bool) (i : Instr) (s : State) : Bool := s.singleStep && tf && !s.raised && !loadsSReg i

theorem endStep_halted {tf : Bool} {i : Instr} {s : State} (h : s.runState = .halted) : endStep tf i s = .next s := if_pos h

theorem endStep_trap {tf : Bool} {i : Instr} {s : State} (h : s.runState ≠ .halted) (ht : trapsAt tf i s = true) :
    endStep tf i s = interrupt 1 (s.setRunState .idle).counted := (if_neg h).trans (if_pos ht)

theorem endStep_noTrap {tf : Bool} {i : Instr} {s : State} (h : s.runState ≠ .halted) (ht : trapsAt tf i s = false) :
    endStep tf i s = .next (s.setRunState .idle).counted := (if_neg h).trans (if_neg (Bool.eq_false_iff.1 ht))

/-- Settles O9: the trap is an interrupt of vector 1 in the state counted. -/
theorem singleStepTrap : Obligations.SingleStepTrap := by
  unfold Obligations.SingleStepTrap
  intro s i tf hs
  refine ⟨endStep_halted, fun hr ⟨h1, h2, h3, h4, h5⟩ => ?_, fun hr h => endStep_noTrap hr ?_⟩
  · have loads : ¬loadsSReg i = true := by
      rw [loadsSReg_iff]
      push Not
      exact ⟨h4, h5⟩
    have trap := endStep_trap (tf := tf) (i := i) hr (by simp [trapsAt, h1, h2, h3, loads])
    have counted : Quiet (s.setRunState .idle).counted := hs
    exact ⟨trap.trans (interrupt_calls 1 counted), fun hi => trap.trans (interrupt_quiet 1 counted hi)⟩
  · obtain h | h | h | h := h
    · simp [trapsAt, h]
    · simp [trapsAt, h]
    · simp [trapsAt, h]
    · simp [trapsAt, loadsSReg_iff.2 h]

/-! ### Where an instruction stops -/

/-- A host that returns from every call stops no instruction. -/
theorem not_mayStop {s : State} (hs : ∀ r ∈ s.host, r.returns = true) (hi : ∃ r, s.atInterrupt = some r ∧ r.returns = true) :
    ¬ MayStop s := by
  rintro (⟨r, hr, h⟩ | h)
  · exact absurd (hs r hr) (by simp [h])
  · obtain ⟨r, hr, hret⟩ := hi
    exact absurd hret (by simp [h r hr])

/-- A fault of an instruction is a stop of the host, which may stop, or the bound of a repeat loop. -/
theorem exec_eq_fault {i : Instr} {s : State} {f : Fault} (h : exec i s = .fault f) : Stops s f ∨ f = .repeatBound := by
  have k := runs_exec i s
  rw [h] at k
  exact k.imp id Host.Outcome.fault.inj

/-- Settles O10: what an instruction can do under any host is `runs_exec`; that it answers next under a quiet one is `stays_exec`. -/
theorem instructionsStopOnlyAtTheHost : Obligations.InstructionsStopOnlyAtTheHost := by
  unfold Obligations.InstructionsStopOnlyAtTheHost
  intro i s
  refine ⟨fun r h => ?_, fun f h => ?_, fun hs hi c t h => ?_, fun hs hi => ?_⟩
  · have k := runs_exec i s
    rw [h] at k
    exact k.elim id nofun
  · exact (exec_eq_fault h).imp_left fun ⟨_, c, t, hf, _⟩ => ⟨c, t, hf⟩
  · obtain ⟨hm, _⟩ | hf := exec_eq_fault h
    · exact not_mayStop hs hi hm
    · cases hf
  · obtain ⟨t, ht, _⟩ := stays_exec i s hi hs
    exact ⟨t, ht⟩

end Sys2Proof.Machine
end

section
/-! SUPPORT. A call of the host (60_exceptions.md R609), and the instructions that are one update or one call: the prefixes (40_pipeline.md
R203-R207) and the invalid rows (40_pipeline.md R215). -/

namespace Sys2Proof.Machine

theorem replyTo_of_script {s : State} {r : HostReply} {rest : List HostReply} (h : s.host = r :: rest) (c : HostCall) : s.replyTo c = r := by
  simp only [State.replyTo, h]

theorem heard_of_script {s : State} {r : HostReply} {rest : List HostReply} (h : s.host = r :: rest) (c : HostCall) :
    s.heard c = s.told c := by simp [State.heard, h]

/-- Past the script a call uses up no reply. -/
theorem told_of_noScript {s : State} (h : s.host = []) (c : HostCall) : s.told c = s.logCall c := by
  rw [State.told, h, List.tail_nil, ← h]

/-- Settles O17: a call is `callHost_eq`; its reply and the state it starts in are those of the next reply of the script or, past it, of the
default host. -/
theorem hostCallStopsOrActs : Obligations.HostCallStopsOrActs := by
  unfold Obligations.HostCallStopsOrActs
  intro s c
  refine ⟨callHost_eq c s, fun r rest h => ?script, fun h hc => ?passive, fun h hc r hr => ?atInterrupt, fun h hc hn => ?anything,
    fun v hv => ?answer, fun hn => ?freeAnswer⟩
  case script =>
    refine ⟨replyTo_of_script h c, ?_⟩
    rw [heard_of_script h, State.told, h, List.tail_cons]
  case passive =>
    rw [← told_of_noScript h]
    exact callHostWith_passive h hc _
  case atInterrupt => simp [State.replyTo, State.heard, told_of_noScript h, h, hc, hr]
  case anything => simp [State.replyTo, State.heard, told_of_noScript h, h, hc, hn]
  case answer => rw [portRead, hv]
  case freeAnswer => rw [portRead, hn]

/-- Settles O55: each of the prefixes is its update of the transient fields. -/
theorem prefixesComplete : Obligations.PrefixesComplete := by
  unfold Obligations.PrefixesComplete
  exact fun s => ⟨rfl, rfl, rfl, rfl, rfl, rfl, rfl⟩

/-- A reply of the script that does not return ends the run, what it does done (40_pipeline.md R231). -/
theorem callHost_of_not_returns {c : HostCall} {s : State} {r : HostReply} {rest : List HostReply} (h : s.host = r :: rest)
    (hr : r.returns = false) :
    callHost c s = thenDo (hostActs report r.acts (s.told c)) fun t => .fault (.hostStopped c t) := by
  simp [callHost_eq, replyTo_of_script h, heard_of_script h, hr]

/-- Settles O56: each row is `invalidOpcode`, a call of the host. -/
theorem invalidOpcodesReport : Obligations.InvalidOpcodesReport := by
  unfold Obligations.InvalidOpcodesReport
  intro s i hi
  have hexec : exec i s = callHost (.invalidOpcode s.stepBytes) s := by
    obtain rfl | ⟨lo, rfl⟩ | rfl | ⟨r, e, rfl⟩ | ⟨g, r, rfl⟩ | ⟨e, rfl⟩ | ⟨r, e, rfl⟩ | ⟨r, e, rfl⟩ | rfl | rfl | ⟨g, r, rfl⟩ |
      ⟨g, r, rfl⟩ | ⟨r, e, rfl⟩ | ⟨r, e, rfl⟩ | rfl | rfl | ⟨e, rfl⟩ | ⟨e, rfl⟩ | ⟨e, rfl⟩ | ⟨e, rfl⟩ | rfl | rfl | ⟨e, rfl⟩ |
      ⟨e, rfl⟩ | ⟨r, e, rfl⟩ | ⟨r, rfl⟩ | ⟨r, rfl⟩ | ⟨e, rfl⟩ := hi <;> rfl
  rw [hexec]
  exact ⟨fun hs => callHost_quiet _ hs, fun r rest h hr => callHost_of_not_returns h hr⟩

end Sys2Proof.Machine
end

section
/-! SUPPORT. Data transfer under the quiet host (41_data_transfer.md): what an operation after an access answers, the state after a push and
after a pop that follows it, and the bits SAHF takes from AH. -/

namespace Sys2Proof.Machine

/-- An operation that answers next hands its value and its state on. -/
theorem thenWith_of_next {α β : Type} {o : Res α} {p : α × State} (h : o = .next p) (f : α → State → Host.Outcome β Fault Refusal) :
    thenWith o f = f p.1 p.2 := by rw [h]; rfl

/-! ### Push16 and Pop16 (R250, R251) -/

theorem reg_pushed_ne (s : State) (v : Word) {k : Reg16} (h : k ≠ .sp) : (s.pushed v).reg k = s.reg k := by
  simp [State.pushed, h]

/-- A push changes the two bytes at the SP it leaves only. -/
theorem peek_pushed_ne (s : State) (v : Word) {a : Addr} (h : a ∉ wordAddrs (s.sreg .ss) (s.reg .sp - 2)) :
    (s.pushed v).peek a = s.peek a := by
  rw [State.pushed, State.peek_storeWord_ne _ _ _ _ h, State.peek_setReg]

theorem wordAt_pushed (s : State) (v : Word) (h : Memory.wf s.mem = true) :
    (s.pushed v).wordAt (s.sreg .ss) (s.reg .sp - 2) = v := State.wordAt_storeWord_self _ _ _ _ h

theorem top_pushed (s : State) (v : Word) (h : Memory.wf s.mem = true) : (s.pushed v).top = v := by
  rw [State.top, State.sreg_pushed, reg_pushed_sp, wordAt_pushed s v h]

theorem reg_popped_ne (s : State) {k : Reg16} (h : k ≠ .sp) : s.popped.reg k = s.reg k := by
  simp [State.popped, h]

/-- Two register files with the same value in every register are the same. -/
theorem Regs.ext_get {g g' : Regs} (h : ∀ k, g.get k = g'.get k) : g = g' := by
  cases g
  cases g'
  exact Regs.mk.injEq .. |>.mpr ⟨h .ax, h .cx, h .dx, h .bx, h .sp, h .bp, h .si, h .di⟩

/-- A pop after a push gives every register its value before the two. -/
theorem regs_popped_pushed (s : State) (v : Word) : (s.pushed v).popped.regs = s.regs :=
  Regs.ext_get fun k => show (s.pushed v).popped.reg k = s.reg k by
    by_cases hk : k = .sp
    · rw [hk, reg_popped_sp, reg_pushed_sp, BitVec.sub_add_cancel]
    · rw [reg_popped_ne _ hk, reg_pushed_ne _ _ hk]

/-- Settles O37: under the quiet host `push16` answers `pushed` and `pop16` then answers `top` and `popped`, whose registers are those from
before the push. -/
theorem pushAndPopAreInverse : Obligations.PushAndPopAreInverse := by
  unfold Obligations.PushAndPopAreInverse
  intro s v hs hw
  have pop : pop16 (s.pushed v) = .next (v, (s.pushed v).popped) := by
    rw [pop16_quiet (quiet_pushed v hs), top_pushed s v hw]
  exact ⟨s.pushed v, push16_quiet v hs, reg_pushed_sp s v, fun _ => reg_pushed_ne s v, s.pushed_sregs v, s.pushed_ip v, s.pushed_flags v,
    s.pushed_perm v, wordAt_pushed s v hw, fun _ => peek_pushed_ne s v, _, pop, regs_popped_pushed s v, State.popped_mem _⟩

/-! ### MOV (R241-R246) -/

theorem execMovGbEb_quiet {s : State} (g : Reg8) (e : Rm8) (h : Quiet s) :
    execMovGbEb g e s = .next ((e.seen s).setReg8 g (e.value s)) := thenWith_of_next (readRm8_quiet e h) _

theorem execMovGvEv_quiet {s : State} (g : Reg16) (e : Rm16) (h : Quiet s) :
    execMovGvEv g e s = .next ((e.seen s).setReg g (e.value s)) := thenWith_of_next (readRm16_quiet e h) _

theorem execMovAlOb_quiet {s : State} (off : Word) (h : Quiet s) :
    execMovAlOb off s = .next ((s.checked .read (lin (segOr .ds s) off)).setReg8 .al (s.byteAt (segOr .ds s) off)) :=
  thenWith_of_next (memRead8_quiet _ off h) _

theorem execMovAxOv_quiet {s : State} (off : Word) (h : Quiet s) :
    execMovAxOv off s = .next ((s.checkedWord .read (segOr .ds s) off).setReg .ax (s.wordAt (segOr .ds s) off)) :=
  thenWith_of_next (memRead16_quiet _ off h) _

theorem loadSReg_quiet {s : State} (r : SReg) (e : Rm16) (h : Quiet s) :
    loadSReg r e s = .next ((e.seen s).setSReg r (e.value s)) := thenWith_of_next (readRm16_quiet e h) _

/-- Settles O34: each form is one write, or one read of its source and an update of a register. -/
theorem movesComplete : Obligations.MovesComplete := by
  unfold Obligations.MovesComplete
  intro s hs
  exact ⟨
    fun e _ => writeRm8_quiet e _ hs,
    fun e _ => writeRm16_quiet e _ hs,
    fun g e => execMovGbEb_quiet g e hs,
    fun g e => execMovGvEv_quiet g e hs,
    fun e _ => writeRm8_quiet e _ hs,
    fun e _ => writeRm16_quiet e _ hs,
    fun _ _ => rfl,
    fun _ _ => rfl,
    fun off => execMovAlOb_quiet off hs,
    fun off => execMovAxOv_quiet off hs,
    fun _ => memWrite8_quiet _ _ _ hs,
    fun _ => memWrite16_quiet _ _ _ hs,
    fun e _ => writeRm16_quiet e _ hs,
    fun e => loadSReg_quiet .es e hs,
    fun e => loadSReg_quiet .ss e hs,
    fun e => loadSReg_quiet .ds e hs⟩

/-! ### The stack instructions (R252-R259) -/

/-- PUSH Ev of any operand but SP pushes the value read (R254). -/
theorem execPushEv_quiet {s : State} {e : Rm16} (he : e ≠ .reg .sp) (h : Quiet s) :
    execPushEv e s = .next ((e.seen s).pushed (e.value s)) := by
  rw [execPushEv, if_neg he, readRm16_quiet e h, thenWith_next, push16_quiet _ (quiet_seen16 e h)]

/-- Settles O36: each form is `push16` of its value; PUSH r16 and PUSH Ev split on SP. -/
theorem pushesComplete : Obligations.PushesComplete := by
  unfold Obligations.PushesComplete
  intro s hs
  refine ⟨fun r hr => ?pushReg, push16_quiet _ hs, push16_quiet _ hs, push16_quiet _ hs, push16_quiet _ hs, push16_quiet _ hs,
    fun _ he => execPushEv_quiet he hs, ?pushEvSp, push16_quiet _ hs⟩
  case pushReg => rw [exec_pushR16, execPushR16, push16_quiet _ hs, pushedReg, if_neg hr]
  case pushEvSp =>
    rw [exec_pushEv, execPushEv, if_pos rfl, push16_quiet _ (quiet_drawn.2 hs)]
    rfl

theorem execPopR16_quiet {s : State} (r : Reg16) (h : Quiet s) : execPopR16 r s = .next (s.popped.setReg r s.top) :=
  thenWith_of_next (pop16_quiet h) _

theorem popSReg_quiet {s : State} (r : SReg) (h : Quiet s) : popSReg r s = .next (s.popped.setSReg r s.top) :=
  thenWith_of_next (pop16_quiet h) _

/-- POP Ev writes at the place its operand names before the pop (R257). -/
theorem execPopEv_quiet {s : State} (e : Rm16) (h : Quiet s) : execPopEv e s = .next (e.stored s s.top s.popped) := by
  rw [execPopEv, pop16_quiet h, thenWith_next, writeRm16_quiet e _ (quiet_popped h)]

theorem execPopf_quiet {s : State} (h : Quiet s) : execPopf s = .next (s.popped.setFlags16 s.top) :=
  thenWith_of_next (pop16_quiet h) _

/-- Settles O38: each form is `pop16` and a write of the word popped. -/
theorem popsComplete : Obligations.PopsComplete := by
  unfold Obligations.PopsComplete
  intro s hs
  exact ⟨fun r => execPopR16_quiet r hs, popSReg_quiet .es hs, popSReg_quiet .ss hs, popSReg_quiet .ds hs,
    fun e => execPopEv_quiet e hs, execPopf_quiet hs⟩

/-! ### Exchanges and address loads (R260-R268) -/

/-- XCHG Eb, Gb reads G before it writes E (R260). -/
theorem execXchgEbGb_quiet {s : State} (e : Rm8) (g : Reg8) (h : Quiet s) :
    execXchgEbGb e g s = .next ((e.stored s (s.reg8 g) (e.seen s)).setReg8 g (e.value s)) := by
  rw [execXchgEbGb, readRm8_quiet e h, thenWith_next, writeRm8_quiet e _ (quiet_seen8 e h), thenDo_next, Rm8.reg8_seen]

/-- XCHG Ev, Gv reads G before it writes E (R260). -/
theorem execXchgEvGv_quiet {s : State} (e : Rm16) (g : Reg16) (h : Quiet s) :
    execXchgEvGv e g s = .next ((e.stored s (s.reg g) (e.seen s)).setReg g (e.value s)) := by
  rw [execXchgEvGv, readRm16_quiet e h, thenWith_next, writeRm16_quiet e _ (quiet_seen16 e h), thenDo_next, Rm16.reg_seen]

theorem execXlat_quiet {s : State} (h : Quiet s) :
    execXlat s = .next ((s.checked .read (lin (segOr .ds s) (s.reg .bx + zext16 (s.reg8 .al)))).setReg8 .al
      (s.byteAt (segOr .ds s) (s.reg .bx + zext16 (s.reg8 .al)))) := thenWith_of_next (memRead8_quiet _ _ h) _

theorem loadFar_quiet {s : State} (r : SReg) (g : Reg16) (m : MemOp) (h : Quiet s) :
    loadFar r g m s = .next (((m.farSeen s).setReg g (m.farOffset s)).setSReg r (m.farSegment s)) :=
  thenWith_of_next (readFar_quiet m h) _

/-- Settles O39: XCHG reads both operands before it writes them, XLAT, LDS and LES are one read and updates of registers, and the others
read no memory. -/
theorem exchangesAndAddressLoadsComplete : Obligations.ExchangesAndAddressLoadsComplete := by
  unfold Obligations.ExchangesAndAddressLoadsComplete
  intro s hs
  exact ⟨fun e g => execXchgEbGb_quiet e g hs, fun e g => execXchgEvGv_quiet e g hs, fun _ => rfl, rfl,
    execXlat_quiet hs, fun _ _ => rfl, fun g m => loadFar_quiet .ds g m hs, fun g m => loadFar_quiet .es g m hs⟩

/-! ### Flag transfers and conversions (R270-R276) -/

/-- The word SAHF writes has each flag of the low byte from AH, and every other flag as it was (R271); the second is `bitsKept_sahf`. -/
theorem getFlag_sahf (f : Flag) (v : Word) (b : Byte) :
    getFlag f (maskFlags ((v &&& 0xFF00) ||| zext16 b)) =
      if f ∈ [Flag.SF, .ZF, .AF, .PF, .CF] then b.getLsbD f.bit else getFlag f v := by
  cases f with
  | CF | PF | AF | ZF | SF =>
    rw [getFlag_maskFlags]
    simp [getFlag, zext16, Flag.bit]
  | TF | IF | DF | OF => exact (bitsKept_sahf v b).getFlag_eq (by decide)

/-- Settles O40: each is one update of the state; the flags SAHF writes are `getFlag_sahf`. -/
theorem flagTransfersAndConversionsComplete : Obligations.FlagTransfersAndConversionsComplete := by
  unfold Obligations.FlagTransfersAndConversionsComplete
  intro s
  refine ⟨rfl, rfl, fun f => getFlag_sahf f s.flags _, rfl, ?_⟩
  rw [exec_cwd, execCwd, BitVec.msb_eq_getLsbD_last]

/-! ### Ports (R280, R281) -/

theorem in8_of_portRead {port : Word} {s : State} {p : Word × State} (h : portRead (.portRead8 port) s = .next p) :
    in8 port s = .next (p.2.setReg8 .al (loByte p.1)) := thenWith_of_next h _

theorem in16_of_portRead {port : Word} {s : State} {p : Word × State} (h : portRead (.portRead16 port) s = .next p) :
    in16 port s = .next (p.2.setReg .ax p.1) := thenWith_of_next h _

/-- Settles O41: IN is one `portRead` and an update of AL or AX, OUT one call of the host. -/
theorem portsComplete : Obligations.PortsComplete := by
  unfold Obligations.PortsComplete
  intro s hs
  exact ⟨
    fun _ => in8_of_portRead (portRead_quiet _ hs),
    fun _ => in16_of_portRead (portRead_quiet _ hs),
    in8_of_portRead (portRead_quiet _ hs),
    in16_of_portRead (portRead_quiet _ hs),
    fun _ => callHost_quiet _ hs,
    fun _ => callHost_quiet _ hs,
    callHost_quiet _ hs,
    callHost_quiet _ hs⟩

end Sys2Proof.Machine
end

section
/-! SUPPORT. The flags of `add_w` and `sub_w` in integers (42_arithmetic.md R300-R303): the result flags of any result, the carry into bit 4
and the signed overflow. What is said of a subtraction's carry comes from the addition that undoes it. -/

namespace Sys2Proof.Machine

section
variable {w : Nat}

/-! ### The result flags (R300, R301) -/

/-- The XOR-fold and the constant 0x6996 count the one bits of a byte modulo 2 (R300). -/
theorem parity8_eq_decide : ∀ v : Byte, parity8 v = decide (ones v % 2 = 0) := by decide +kernel

theorem beq_zero_eq_decide (r : BitVec w) : (r == 0) = decide (r.toNat = 0) := by
  rw [Bool.beq_eq_decide_eq]
  exact decide_eq_decide.2 BitVec.toNat_inj.symm

/-! ### The results (R302, R303) -/

theorem toNat_ofInt_cast (p : Int) : ((BitVec.ofInt w p).toNat : Int) = p % 2 ^ w := by
  rw [BitVec.toNat_ofInt, Int.toNat_of_nonneg (Int.emod_nonneg _ (by simp))]
  norm_cast

theorem addResult_toNat (a b : BitVec w) (c : Bool) : (addResult a b c).toNat = (a.toNat + b.toNat + c.toNat) % 2 ^ w :=
  BitVec.toNat_ofNat ..

theorem subResult_toNat (a b : BitVec w) (c : Bool) :
    ((subResult a b c).toNat : Int) = ((a.toNat : Int) - b.toNat - c.toNat) % 2 ^ w := toNat_ofInt_cast _

theorem addResult_eq_add (a b : BitVec w) (c : Bool) : addResult a b c = a + b + (BitVec.ofBool c).setWidth w := by
  apply BitVec.eq_of_toNat_eq
  simp [addResult_toNat, Nat.add_mod]

/-- A subtraction is undone by the addition of what it took away. -/
theorem addResult_subResult (a b : BitVec w) (c : Bool) : addResult (subResult a b c) b c = a := by
  apply BitVec.eq_of_toNat_eq
  zify
  rw [addResult_toNat]
  push_cast
  rw [subResult_toNat, add_assoc, Int.emod_add_emod, sub_sub, sub_add_cancel]
  exact Int.emod_eq_of_lt (by omega) (by exact_mod_cast a.isLt)

/-! ### The carry into bit 4 (R302, R303) -/

/-- Bit 4 of `a ^ b ^ r` is the carry out of bit 3. -/
theorem getLsbD_xor_addResult (hw : 4 < w) (a b : BitVec w) (c : Bool) :
    (a ^^^ b ^^^ addResult a b c).getLsbD 4 = decide (16 ≤ a.toNat % 16 + b.toNat % 16 + c.toNat) := by
  rw [addResult_eq_add, BitVec.getLsbD_xor, BitVec.getLsbD_xor, BitVec.getLsbD_add_add_bool hw, BitVec.carry]
  cases a.getLsbD 4 <;> cases b.getLsbD 4 <;> simp

/-- Bit 4 of `a ^ b ^ r` is the borrow into bit 4: the carry of the addition that gives `a` back. -/
theorem getLsbD_xor_subResult (hw : 4 < w) (a b : BitVec w) (c : Bool) :
    (a ^^^ b ^^^ subResult a b c).getLsbD 4 = decide (a.toNat % 16 < b.toNat % 16 + c.toNat) := by
  have swap : a ^^^ b ^^^ subResult a b c = subResult a b c ^^^ b ^^^ a := by ac_rfl
  have carry := getLsbD_xor_addResult hw (subResult a b c) b c
  have low : (addResult (subResult a b c) b c).toNat % 16 = ((subResult a b c).toNat + b.toNat + c.toNat) % 16 := by
    rw [addResult_toNat]
    exact Nat.mod_mod_of_dvd _ (pow_dvd_pow 2 hw.le)
  rw [addResult_subResult] at carry low
  rw [swap, carry, decide_eq_decide]
  have := c.toNat_le
  omega

/-- The operands share a sign and the result has the other: the signed sum does not fit (R302). -/
theorem overflow_addResult (hw : w = 8 ∨ w = 16) (a b : BitVec w) (c : Bool) :
    (a.msb == b.msb && (addResult a b c).msb != a.msb) =
      decide (a.toInt + b.toInt + c.toNat < -(2 ^ (w - 1)) ∨ 2 ^ (w - 1) ≤ a.toInt + b.toInt + c.toNat) := by
  have sum := addResult_toNat a b c
  have carry := c.toNat_le
  rw [Bool.eq_iff_iff]
  simp only [BitVec.msb_eq_decide, BitVec.toInt_eq_toNat_cond, Bool.and_eq_true, beq_iff_eq, bne_iff_ne, decide_eq_decide,
    decide_eq_true_iff, ne_eq]
  rcases hw with rfl | rfl <;> omega

/-- The operands differ in sign and the result's sign is not the minuend's: the signed difference does not fit (R303). -/
theorem overflow_subResult (hw : w = 8 ∨ w = 16) (a b : BitVec w) (c : Bool) :
    (a.msb != b.msb && (subResult a b c).msb != a.msb) =
      decide (a.toInt - b.toInt - c.toNat < -(2 ^ (w - 1)) ∨ 2 ^ (w - 1) ≤ a.toInt - b.toInt - c.toNat) := by
  have difference := subResult_toNat a b c
  have borrow := c.toNat_le
  rw [Bool.eq_iff_iff]
  simp only [BitVec.msb_eq_decide, BitVec.toInt_eq_toNat_cond, Bool.and_eq_true, bne_iff_ne, decide_eq_decide,
    decide_eq_true_iff, ne_eq]
  rcases hw with rfl | rfl <;> omega

end

/-- A bit of FLAGS that belongs to no flag listed is as it was. -/
theorem BitsKept.getLsbD_eq {fs : List Flag} {v v' : Word} (h : BitsKept fs false v v') {n : Nat} (hn : n ∉ fs.map Flag.bit) :
    v'.getLsbD n = v.getLsbD n :=
  h n (fun f hf e => hn (List.mem_map.2 ⟨f, hf, e⟩)) nofun

/-- Settles O19: AF by `getLsbD_xor_addResult`, OF by `overflow_addResult`, the frame by `bitsKept_addFlags`. -/
theorem additionFlags : Obligations.AdditionFlags := by
  unfold Obligations.AdditionFlags
  intro w a b c v hw
  simp only [getFlag_addFlags]
  exact ⟨addResult_toNat a b c, trivial, getLsbD_xor_addResult (by omega) a b c, overflow_addResult hw a b c, BitVec.msb_eq_decide _,
    beq_zero_eq_decide _, parity8_eq_decide _, fun _ => (bitsKept_addFlags a b c (List.Subset.refl _)).getLsbD_eq⟩

/-- Settles O20: AF by `getLsbD_xor_subResult`, OF by `overflow_subResult`, the frame by `bitsKept_subFlags`. -/
theorem subtractionFlags : Obligations.SubtractionFlags := by
  unfold Obligations.SubtractionFlags
  intro w a b c v hw
  simp only [getFlag_subFlags]
  exact ⟨subResult_toNat a b c, decide_eq_decide.2 (by omega), getLsbD_xor_subResult (by omega) a b c, overflow_subResult hw a b c,
    BitVec.msb_eq_decide _, beq_zero_eq_decide _, parity8_eq_decide _,
    fun _ => (bitsKept_subFlags a b c (List.Subset.refl _)).getLsbD_eq⟩

end Sys2Proof.Machine
end

section
/-! SUPPORT. The arithmetic instructions under the quiet host (42_arithmetic.md R304-R326): the operand forms of a two-operand instruction
from what it does with two values, the halves of a product, and a division that completes or traps. -/

namespace Sys2Proof.Machine

/-! ### The two-operand forms (R304) -/

theorem ite_eq_ite_not {α : Type} (b : Bool) (x y : α) : (if b then x else y) = if !b then y else x := by cases b <;> rfl

/-- An instruction whose six forms are those of `op` completes in them with what `op` does to two values, and keeps its destination where
`op` writes none. For the instructions of the model each hypothesis holds by definition. -/
theorem egForms (op : AluOp) {f8 : Effect 8} {f16 : Effect 16}
    {ebGb : Rm8 → Reg8 → Instr} {evGv : Rm16 → Reg16 → Instr} {alIb : Byte → Instr} {axIw : Word → Instr}
    {ebIb : Rm8 → Byte → Instr} {evIw : Rm16 → Word → Instr}
    (h8 : aluApply op = f8 := by rfl) (h16 : aluApply op = f16 := by rfl)
    (hebGb : ∀ e g s, exec (ebGb e g) s = aluRm8 op e (fun s => s.reg8 g) s := by intros; rfl)
    (hevGv : ∀ e g s, exec (evGv e g) s = aluRm16 op e (fun s => s.reg g) s := by intros; rfl)
    (halIb : ∀ imm s, exec (alIb imm) s = aluAcc8 op imm s := by intros; rfl)
    (haxIw : ∀ imm s, exec (axIw imm) s = aluAcc16 op imm s := by intros; rfl)
    (hebIb : ∀ e imm s, exec (ebIb e imm) s = aluRm8 op e (fun _ => imm) s := by intros; rfl)
    (hevIw : ∀ e imm s, exec (evIw e imm) s = aluRm16 op e (fun _ => imm) s := by intros; rfl) :
    EGForms f8 f16 (!op.writes) ebGb evGv alIb axIw ebIb evIw := by
  subst h8 h16
  intro s hs
  refine ⟨fun e g => ?_, fun e g => ?_, fun imm => ?_, fun imm => ?_, fun e imm => ?_, fun e imm => ?_⟩
  · simp only [hebGb, aluRm8_quiet _ _ _ hs, Rm8.reg8_seen, ite_eq_ite_not op.writes]
  · simp only [hevGv, aluRm16_quiet _ _ _ hs, Rm16.reg_seen, ite_eq_ite_not op.writes]
  · simp only [halIb, aluAcc8, ite_eq_ite_not op.writes]
  · simp only [haxIw, aluAcc16, ite_eq_ite_not op.writes]
  · simp only [hebIb, aluRm8_quiet _ _ _ hs, ite_eq_ite_not op.writes]
  · simp only [hevIw, aluRm16_quiet _ _ _ hs, ite_eq_ite_not op.writes]

/-- As `egForms`, for the forms with destination G and the sign-extended immediate. -/
theorem geForms (op : AluOp) {f8 : Effect 8} {f16 : Effect 16}
    {gbEb : Reg8 → Rm8 → Instr} {gvEv : Reg16 → Rm16 → Instr} {evSib : Rm16 → Byte → Instr}
    (h8 : aluApply op = f8 := by rfl) (h16 : aluApply op = f16 := by rfl)
    (hgbEb : ∀ g e s, exec (gbEb g e) s = aluReg8 op g e s := by intros; rfl)
    (hgvEv : ∀ g e s, exec (gvEv g e) s = aluReg16 op g e s := by intros; rfl)
    (hevSib : ∀ e imm s, exec (evSib e imm) s = aluRm16 op e (fun _ => sext16 imm) s := by intros; rfl) :
    GEForms f8 f16 (!op.writes) gbEb gvEv evSib := by
  subst h8 h16
  intro s hs
  refine ⟨fun g e => ?_, fun g e => ?_, fun e imm => ?_⟩
  · simp only [hgbEb, aluReg8_quiet _ _ _ hs, ite_eq_ite_not op.writes]
  · simp only [hgvEv, aluReg16_quiet _ _ _ hs, ite_eq_ite_not op.writes]
  · simp only [hevSib, aluRm16_quiet _ _ _ hs, ite_eq_ite_not op.writes]

/-- Settles O22: the forms of ADD and of ADC, by `egForms` and `geForms`. -/
theorem addCompletes : Obligations.AddCompletes :=
  ⟨egForms .add, geForms .add, egForms .adc, geForms .adc⟩

/-- Settles O23: the forms of SUB, SBB and CMP, by `egForms` and `geForms`. -/
theorem subtractCompletes : Obligations.SubtractCompletes :=
  ⟨egForms .sub, geForms .sub, egForms .sbb, geForms .sbb, egForms .cmp, geForms .cmp⟩

/-! ### INC, DEC, NEG, NOT (R315-R317; 44_logic_shift.md R395) -/

/-- Settles O25: each form is one `modifyRm8` or `modifyRm16`, of a function that leaves the host's script alone. -/
theorem unaryCompletes : Obligations.UnaryCompletes := by
  unfold Obligations.UnaryCompletes
  intro s hs
  exact ⟨
    fun e => modifyRm8_quiet e (incValue (s.flag .CF)) hs fun _ _ h => h,
    fun e => modifyRm16_quiet e (incValue (s.flag .CF)) hs fun _ _ h => h,
    fun r => modifyRm16_quiet (.reg r) (incValue (s.flag .CF)) hs fun _ _ h => h,
    fun e => modifyRm8_quiet e (decValue (s.flag .CF)) hs fun _ _ h => h,
    fun e => modifyRm16_quiet e (decValue (s.flag .CF)) hs fun _ _ h => h,
    fun r => modifyRm16_quiet (.reg r) (decValue (s.flag .CF)) hs fun _ _ h => h,
    fun e => modifyRm8_quiet e negValue hs fun _ _ h => h,
    fun e => modifyRm16_quiet e negValue hs fun _ _ h => h,
    fun e => modifyRm8_quiet e (fun v t => (v ^^^ 0xFF, t)) hs fun _ _ h => h,
    fun e => modifyRm16_quiet e (fun v t => (v ^^^ 0xFFFF, t)) hs fun _ _ h => h⟩

/-! ### The halves of a product (R320, R321) -/

section
variable {w v : Nat}

theorem setWidth_ofInt_of_le (h : w ≤ v) (p : Int) : (BitVec.ofInt v p).setWidth w = BitVec.ofInt w p := by
  apply BitVec.eq_of_toNat_eq
  zify
  rw [BitVec.toNat_setWidth]
  push_cast
  rw [toNat_ofInt_cast, toNat_ofInt_cast, Int.emod_emod_of_dvd _ (pow_dvd_pow 2 h)]

/-- The high half of a product is its quotient by the low half's modulus, rounded down. -/
theorem highHalf_ofInt (p : Int) : (BitVec.ofInt (w + w) p).extractLsb' w w = BitVec.ofInt w (p / 2 ^ w) := by
  apply BitVec.eq_of_toNat_eq
  zify
  rw [BitVec.extractLsb'_toNat, Nat.shiftRight_eq_div_pow]
  push_cast
  rw [toNat_ofInt_cast, toNat_ofInt_cast, pow_add, Int.emod_def p, mul_assoc, Int.sub_mul_ediv_left _ _ (by positivity),
    Int.sub_mul_emod_self_left]

theorem highHalf_ofNat (p : Nat) : (BitVec.ofNat (w + w) p).extractLsb' w w = BitVec.ofNat w (p / 2 ^ w) := by
  rw [← BitVec.ofInt_natCast, highHalf_ofInt, ← BitVec.ofInt_natCast]
  norm_cast

theorem setWidth_mul_setWidth (v : Nat) (a b : BitVec w) : a.setWidth v * b.setWidth v = BitVec.ofNat v (a.toNat * b.toNat) := by
  rw [BitVec.ofNat_mul, BitVec.ofNat_toNat, BitVec.ofNat_toNat]

/-- The high half of an unsigned product is not 0: the product does not fit the low half (R320). -/
theorem highHalf_ne_zero (a b : BitVec w) :
    ((BitVec.ofNat (w + w) (a.toNat * b.toNat)).extractLsb' w w != 0) = decide (2 ^ w ≤ a.toNat * b.toNat) := by
  have small : a.toNat * b.toNat / 2 ^ w < 2 ^ w :=
    Nat.div_lt_of_lt_mul (by simpa [← pow_add, ← mul_two] using BitVec.toNat_mul_toNat_lt)
  rw [highHalf_ofNat, bne, beq_zero_eq_decide, BitVec.toNat_ofNat, Nat.mod_eq_of_lt small, ← decide_not]
  simp

/-- A signed product always fits the double width. -/
theorem bmod_mul_toInt (hw : w = 8 ∨ w = 16) (a b : BitVec w) : (a.toInt * b.toInt).bmod (2 ^ (w + w)) = a.toInt * b.toInt := by
  have least := BitVec.le_toInt_mul_toInt (x := a) (y := b)
  have greatest := BitVec.toInt_mul_toInt_le (x := a) (y := b)
  rcases hw with rfl | rfl <;> exact Int.bmod_eq_of_le (by omega) (by omega)

/-- The product is not the sign extension of its low half: the low half alone has another value (R321). -/
theorem ne_signExtend_lowHalf (hw : w = 8 ∨ w = 16) (a b : BitVec w) :
    let p := a.toInt * b.toInt
    (BitVec.ofInt (w + w) p != ((BitVec.ofInt (w + w) p).setWidth w).signExtend (w + w)) = decide (p ≠ p.bmod (2 ^ w)) := by
  have wider := Nat.le_add_right w w
  dsimp only
  rw [bne, Bool.beq_eq_decide_eq, ← decide_not, decide_eq_decide, setWidth_ofInt_of_le wider, ← BitVec.toInt_inj,
    BitVec.toInt_signExtend_of_le wider, BitVec.toInt_ofInt, BitVec.toInt_ofInt, bmod_mul_toInt hw]

end

/-! ### MUL and IMUL (R320, R321) -/

theorem execMulEb_quiet {s : State} (e : Rm8) (h : Quiet s) :
    execMulEb e s = .next (let p := (s.reg8 .al).toNat * (e.value s).toNat
      setProduct8 (BitVec.ofNat 16 p) (decide (0x100 ≤ p)) (e.seen s)) := by
  have high : (hiByte (BitVec.ofNat 16 ((s.reg8 .al).toNat * (e.value s).toNat)) != 0) = _ := highHalf_ne_zero (s.reg8 .al) (e.value s)
  simp only [execMulEb, readRm8_quiet e h, thenWith_next, zext16, setWidth_mul_setWidth, high]
  rfl

theorem execMulEv_quiet {s : State} (e : Rm16) (h : Quiet s) :
    execMulEv e s = .next (let p := (s.reg .ax).toNat * (e.value s).toNat
      setProduct16 (BitVec.ofNat 32 p) (decide (0x10000 ≤ p)) (e.seen s)) := by
  have high : ((BitVec.ofNat 32 ((s.reg .ax).toNat * (e.value s).toNat)).extractLsb' 16 16 != 0) = _ :=
    highHalf_ne_zero (s.reg .ax) (e.value s)
  simp only [execMulEv, readRm16_quiet e h, thenWith_next, setWidth_mul_setWidth, high]
  rfl

theorem execImulEb_quiet {s : State} (e : Rm8) (h : Quiet s) :
    execImulEb e s = .next (let p := (s.reg8 .al).toInt * (e.value s).toInt
      setProduct8 (BitVec.ofInt 16 p) (decide (p < -0x80 ∨ 0x7F < p)) (e.seen s)) := by
  have wide : (let p := (s.reg8 .al).toInt * (e.value s).toInt
      (BitVec.ofInt 16 p != sext16 (loByte (BitVec.ofInt 16 p))) = decide (p < -0x80 ∨ 0x7F < p)) :=
    (ne_signExtend_lowHalf (.inl rfl) (s.reg8 .al) (e.value s)).trans (decide_eq_decide.2 (by rw [Int.bmod_def]; omega))
  simp only [execImulEb, readRm8_quiet e h, thenWith_next, wide]

theorem execImulEv_quiet {s : State} (e : Rm16) (h : Quiet s) :
    execImulEv e s = .next (let p := (s.reg .ax).toInt * (e.value s).toInt
      setProduct16 (BitVec.ofInt 32 p) (decide (p < -0x8000 ∨ 0x7FFF < p)) (e.seen s)) := by
  have wide : (let p := (s.reg .ax).toInt * (e.value s).toInt
      (BitVec.ofInt 32 p != ((BitVec.ofInt 32 p).setWidth 16).signExtend 32) = decide (p < -0x8000 ∨ 0x7FFF < p)) :=
    (ne_signExtend_lowHalf (.inr rfl) (s.reg .ax) (e.value s)).trans (decide_eq_decide.2 (by rw [Int.bmod_def]; omega))
  simp only [execImulEv, readRm16_quiet e h, thenWith_next, wide]

/-- The halves of an unsigned 32-bit product in DX and AX (R320). -/
theorem setProduct16_ofNat (p : Nat) (high : Bool) (s : State) : setProduct16 (BitVec.ofNat 32 p) high s =
    mulFlags high ((s.setReg .dx (BitVec.ofNat 16 (p / 0x10000))).setReg .ax (BitVec.ofNat 16 p)) := by
  have dx : (BitVec.ofNat 32 p).extractLsb' 16 16 = BitVec.ofNat 16 (p / 0x10000) := highHalf_ofNat (w := 16) p
  rw [setProduct16, dx, BitVec.setWidth_ofNat_of_le (by decide)]

/-- The halves of a signed 32-bit product in DX and AX (R321). -/
theorem setProduct16_ofInt (p : Int) (high : Bool) (s : State) : setProduct16 (BitVec.ofInt 32 p) high s =
    mulFlags high ((s.setReg .dx (BitVec.ofInt 16 (p / 0x10000))).setReg .ax (BitVec.ofInt 16 p)) := by
  have dx : (BitVec.ofInt 32 p).extractLsb' 16 16 = BitVec.ofInt 16 (p / 0x10000) := highHalf_ofInt (w := 16) p
  rw [setProduct16, dx, setWidth_ofInt_of_le (by decide)]

/-- Settles O26: the product by `execMulEb_quiet` and its like, its halves by `setProduct16_ofNat` and `setProduct16_ofInt`. -/
theorem multiplyCompletes : Obligations.MultiplyCompletes := by
  unfold Obligations.MultiplyCompletes
  intro s hs
  exact ⟨
    fun e => execMulEb_quiet e hs,
    fun e => (execMulEv_quiet e hs).trans (congrArg _ (setProduct16_ofNat ..)),
    fun e => execImulEb_quiet e hs,
    fun e => (execImulEv_quiet e hs).trans (congrArg _ (setProduct16_ofInt ..))⟩

/-! ### Where a division completes and where it does not (R322, R323) -/

theorem divideUnsigned_some {n d limit : Nat} (hd : d ≠ 0) (hq : n / d ≤ limit) : divideUnsigned n d limit = some (n / d, n % d) := by
  rw [divideUnsigned, if_neg hd, if_neg hq.not_gt]

theorem divideUnsigned_none {n d limit : Nat} (h : d = 0 ∨ limit < n / d) : divideUnsigned n d limit = none := by
  rw [divideUnsigned]
  rcases h with h | h
  · rw [if_pos h]
  · rw [if_pos h, ite_self]

theorem divideSigned_none {n d limit : Int} (h : d = 0 ∨ n.tdiv d < -limit ∨ limit < n.tdiv d) : divideSigned n d limit = none := by
  rw [divideSigned]
  rcases h with h | h
  · rw [if_pos h]
  · rw [if_pos h, ite_self]

section
variable {s : State} (hs : Quiet s)
include hs

theorem execDivEb_some (e : Rm8) {q r : Nat} (h : divideUnsigned (s.reg .ax).toNat (e.value s).toNat 0xFF = some (q, r)) :
    execDivEb e s = .next (setQuotient8 (BitVec.ofNat 8 q) (BitVec.ofNat 8 r) (e.seen s)) := by
  rw [execDivEb, readRm8_quiet e hs, thenWith_next, Rm8.reg_seen, h]

theorem execDivEb_none (e : Rm8) (h : divideUnsigned (s.reg .ax).toNat (e.value s).toNat 0xFF = none) :
    execDivEb e s = divideFault (e.seen s) := by
  rw [execDivEb, readRm8_quiet e hs, thenWith_next, Rm8.reg_seen, h]

theorem execDivEv_some (e : Rm16) {q r : Nat} (h : divideUnsigned (dxAx s).toNat (e.value s).toNat 0xFFFF = some (q, r)) :
    execDivEv e s = .next (setQuotient16 (BitVec.ofNat 16 q) (BitVec.ofNat 16 r) (e.seen s)) := by
  rw [execDivEv, readRm16_quiet e hs, thenWith_next, dxAx_seen16, h]

theorem execDivEv_none (e : Rm16) (h : divideUnsigned (dxAx s).toNat (e.value s).toNat 0xFFFF = none) :
    execDivEv e s = divideFault (e.seen s) := by
  rw [execDivEv, readRm16_quiet e hs, thenWith_next, dxAx_seen16, h]

theorem execIdivEb_some (e : Rm8) {q r : Int} (h : divideSigned (s.reg .ax).toInt (e.value s).toInt 127 = some (q, r)) :
    execIdivEb e s =
      .next (setQuotient8 (BitVec.ofInt 8 (packedQuotient q (e.seen s))) (BitVec.ofInt 8 r) (afterNegate (e.seen s))) := by
  rw [execIdivEb, readRm8_quiet e hs, thenWith_next, h]

theorem execIdivEb_none (e : Rm8) (h : divideSigned (s.reg .ax).toInt (e.value s).toInt 127 = none) :
    execIdivEb e s = divideFault (e.seen s) := by
  rw [execIdivEb, readRm8_quiet e hs, thenWith_next, h]

theorem execIdivEv_some (e : Rm16) {q r : Int} (h : divideSigned (dxAx s).toInt (e.value s).toInt 32767 = some (q, r)) :
    execIdivEv e s =
      .next (setQuotient16 (BitVec.ofInt 16 (packedQuotient q (e.seen s))) (BitVec.ofInt 16 r) (afterNegate (e.seen s))) := by
  rw [execIdivEv, readRm16_quiet e hs, thenWith_next, h]

theorem execIdivEv_none (e : Rm16) (h : divideSigned (dxAx s).toInt (e.value s).toInt 32767 = none) :
    execIdivEv e s = divideFault (e.seen s) := by
  rw [execIdivEv, readRm16_quiet e hs, thenWith_next, h]

end

/-- Settles O27: the quotient that fits is the one `divideUnsigned` gives; DX:AX is a number by `dxAx_toNat`. -/
theorem unsignedDivideCompletes : Obligations.UnsignedDivideCompletes := by
  unfold Obligations.UnsignedDivideCompletes
  intro s hs
  refine ⟨fun e hd hq => ?byte, fun e hd hq => ?word, fun f v => ?flags⟩
  case byte => exact execDivEb_some hs e (divideUnsigned_some hd hq)
  case word =>
    rw [← dxAx_toNat] at hq ⊢
    exact execDivEv_some hs e (divideUnsigned_some hd hq)
  case flags =>
    rw [getFlag_clearStatus]
    cases f with
    | CF | PF | AF | ZF | SF | OF => exact Bool.and_false _
    | TF | IF | DF => exact Bool.and_true _

/-! ### The negated quotient (R326) -/

/-- What IDIV packs, and the state it packs it in, in the three cases of the prefixes: `f` is what it does with them. -/
theorem negateQuotient_cases {α : Type} {s t : State} (hr : t.rep = s.rep) (hl : t.lastPrefixRep = s.lastPrefixRep) (hd : t.draws = s.draws)
    (q : Int) (f : Int → State → α) :
    (s.rep = false → f (packedQuotient q t) (afterNegate t) = f q t) ∧
    (s.rep = true → s.lastPrefixRep = true → f (packedQuotient q t) (afterNegate t) = f (-q) t) ∧
    (s.rep = true → s.lastPrefixRep = false →
      f (packedQuotient q t) (afterNegate t) = f (if Config.freeBit s.draws then -q else q) t.drawn) := by
  refine ⟨fun h => ?_, fun h h' => ?_, fun h h' => ?_⟩
  · simp [packedQuotient, negatesQuotient, afterNegate, hr, h]
  · simp [packedQuotient, negatesQuotient, afterNegate, hr, hl, h, h']
  · simp [packedQuotient, negatesQuotient, afterNegate, State.draw, hr, hl, hd, h, h']

/-- Settles O28: the quotient in range is the one `divideSigned` gives, and `negateQuotient_cases` says what is packed. -/
theorem signedDivideCompletes : Obligations.SignedDivideCompletes := by
  unfold Obligations.SignedDivideCompletes
  intro s hs
  refine ⟨fun e => ?byte, fun e => ?word⟩
  case byte =>
    intro n d hd hlo hhi done
    rw [exec_idivEb, execIdivEb_some hs e (divideSigned_some hd hlo hhi)]
    exact negateQuotient_cases (e.seen_rep s) (e.seen_lastPrefixRep s) (e.seen_draws s) (n.tdiv d) done
  case word =>
    intro n d hd hlo hhi done
    rw [exec_idivEv, execIdivEv_some hs e (divideSigned_some hd hlo hhi)]
    exact negateQuotient_cases (e.seen_rep s) (e.seen_lastPrefixRep s) (e.seen_draws s) (n.tdiv d) done

/-! ### The divide fault (R325) -/

theorem execAam_zero (s : State) : execAam 0 s = divideFault s := if_pos rfl

theorem reg_freeFlags (s : State) (fs : List Flag) (k : Reg16) : (s.freeFlags fs).reg k = s.reg k := by
  rw [State.freeFlags_eq]
  rfl

/-- An instruction that ends in a divide fault traps through vector 0, whatever the host does at the call. -/
theorem traps_of_divideFault {i : Instr} {s t : State} (h : exec i s = divideFault t) (ht : Quiet t) (ha : t.atInterrupt = s.atInterrupt) :
    let drawn := t.freeFlags [.CF, .PF, .AF, .ZF, .SF, .OF]
    exec i s = thenDo (callHost (.interrupt 0) (drawn.presented 0)) (fun u => .next (u.setRunState .idle)) ∧
    (QuietAtInterrupt s → exec i s = .next (drawn.dispatched 0)) :=
  ⟨h.trans (interrupt_calls 0 (quiet_freeFlags.2 ht)), fun hi => h.trans (divideFault_quiet ht (quietAtInterrupt_of ha hi))⟩

/-- Settles O29: each of the five is a `divideFault`, with E read before it. -/
theorem divideFaultTraps : Obligations.DivideFaultTraps := by
  unfold Obligations.DivideFaultTraps
  intro s hs drawn traps
  have traps8 (e : Rm8) {i : Instr} (h : exec i s = divideFault (e.seen s)) : traps i (e.seen s) :=
    traps_of_divideFault h (quiet_seen8 e hs) (e.seen_atInterrupt s)
  have traps16 (e : Rm16) {i : Instr} (h : exec i s = divideFault (e.seen s)) : traps i (e.seen s) :=
    traps_of_divideFault h (quiet_seen16 e hs) (e.seen_atInterrupt s)
  exact ⟨
    fun e h => traps8 e (execDivEb_none hs e (divideUnsigned_none h)),
    fun e h => traps16 e (execDivEv_none hs e (divideUnsigned_none h)),
    fun e h => traps8 e (execIdivEb_none hs e (divideSigned_none h)),
    fun e h => traps16 e (execIdivEv_none hs e (divideSigned_none h)),
    traps_of_divideFault (execAam_zero s) hs rfl,
    reg_freeFlags s _⟩

end Sys2Proof.Machine
end

section
/-! SUPPORT. The BCD adjustments (43_bcd.md R360-R365): what each answers where its correction applies, where it does not, and where a draw
decides it. -/

namespace Sys2Proof.Machine

/-! ### AAA, AAS (R360, R361) -/

theorem lowAdjust_iff (al : Byte) (af : Bool) : lowAdjust al af = true ↔ 9 < (al &&& 0x0F).toNat ∨ af = true := by
  rw [lowAdjust, Bool.or_eq_true, decide_eq_true_iff]

/-- The state AAA and AAS end in, from AL and AH as corrected or kept. -/
def asciiAdjusted (s : State) (al ah : Byte) (applied : Bool) : State :=
  ((((s.setReg8 .ah ah).setFlag .AF applied).setFlag .CF applied).setReg8 .al (al &&& 0x0F)).freeFlags [.OF, .SF, .ZF, .PF]

theorem asciiAdjust_applied {s : State} (h : lowAdjust (s.reg8 .al) (s.flag .AF) = true) (al6 ah1 : Byte → Byte) :
    asciiAdjust al6 ah1 s = .next (asciiAdjusted s (al6 (s.reg8 .al)) (ah1 (s.reg8 .ah)) true) := by
  simp only [asciiAdjust, asciiAdjusted, h, if_true]

theorem asciiAdjust_notApplied {s : State} (h : ¬lowAdjust (s.reg8 .al) (s.flag .AF) = true) (al6 ah1 : Byte → Byte) :
    asciiAdjust al6 ah1 s = .next (asciiAdjusted s (s.reg8 .al) (s.reg8 .ah) false) := by
  simp only [asciiAdjust, asciiAdjusted, Bool.eq_false_of_not_eq_true h, Bool.false_eq_true, if_false]

/-- Settles O30: AAA and AAS are one adjustment, with the correction (`asciiAdjust_applied`) or without (`asciiAdjust_notApplied`). -/
theorem asciiAdjustCompletes : Obligations.AsciiAdjustCompletes := by
  unfold Obligations.AsciiAdjustCompletes
  intro s al ah done
  rw [← lowAdjust_iff]
  exact ⟨fun h => ⟨asciiAdjust_applied h (· + 6) (· + 1), asciiAdjust_applied h (· - 6) (· - 1)⟩,
    fun h => ⟨asciiAdjust_notApplied h (· + 6) (· + 1), asciiAdjust_notApplied h (· - 6) (· - 1)⟩⟩

/-! ### DAA, DAS (R362, R363; D7) -/

theorem drawBand_iff (al : Byte) (af cf : Bool) :
    drawBand al af cf = true ↔ af = true ∧ cf = false ∧ 0x9A ≤ al.toNat ∧ al.toNat ≤ 0x9F := by
  simp only [drawBand, Bool.and_eq_true, Bool.not_eq_true', decide_eq_true_iff, and_assoc]

/-- The state DAA and DAS end in, from the corrections applied and the AL they give; `t` is the state once the draw, if any, is taken. -/
def decimalAdjusted (t : State) (low high : Bool) (al : Byte) : State :=
  ((((t.setReg8 .al al).setFlag .AF low).setFlag .CF high).mapFlags (putSZP al)).freeFlags [.OF]

/-- AL after both corrections of DAA (`move` adds) or DAS (`move` subtracts). -/
def decimalCorrected (move : Byte → Byte → Byte) (al : Byte) (low high : Bool) : Byte :=
  move (move al (if low then 0x06 else 0)) (if high then 0x60 else 0)

theorem ite_move {move : Byte → Byte → Byte} (h0 : ∀ a, move a 0 = a) (b : Bool) (a v : Byte) :
    (if b then move a v else a) = move a (if b then v else 0) := by
  cases b
  · exact (h0 a).symm
  · rfl

section
variable {s : State} {move : Byte → Byte → Byte} {low high : Bool} (h0 : ∀ a, move a 0 = a)
  (hlow : lowAdjust (s.reg8 .al) (s.flag .AF) = low)
include h0 hlow

/-- Outside the band of D7 the high correction is decided on the old AL and CF. -/
theorem decimalAdjust_decided (hhigh : (decide (0x99 < (s.reg8 .al).toNat) || s.flag .CF) = high)
    (h : ¬drawBand (s.reg8 .al) (s.flag .AF) (s.flag .CF) = true) :
    decimalAdjust move s = .next (decimalAdjusted s low high (decimalCorrected move (s.reg8 .al) low high)) := by
  simp only [decimalAdjust, if_neg h, hlow, hhigh, ite_move h0, decimalAdjusted, decimalCorrected]

/-- In the band of D7 a draw decides the high correction. -/
theorem decimalAdjust_drawn (h : drawBand (s.reg8 .al) (s.flag .AF) (s.flag .CF) = true) :
    decimalAdjust move s = .next (decimalAdjusted s.drawn low s.draw (decimalCorrected move (s.reg8 .al) low s.draw)) := by
  simp only [decimalAdjust, if_pos h, hlow, ite_move h0, decimalAdjusted, decimalCorrected]

end

/-- Settles O31: DAA and DAS are one adjustment, outside the band (`decimalAdjust_decided`) and in it (`decimalAdjust_drawn`). -/
theorem decimalAdjustCompletes : Obligations.DecimalAdjustCompletes := by
  unfold Obligations.DecimalAdjustCompletes
  intro s al af cf low six done high draw
  have hlow : lowAdjust al af = low := Bool.eq_iff_iff.2 ((lowAdjust_iff al af).trans decide_eq_true_iff.symm)
  have hhigh : (decide (0x99 < al.toNat) || cf) = high := by simp [high]
  rw [← drawBand_iff]
  exact ⟨
    fun h => ⟨decimalAdjust_decided (move := (· + ·)) BitVec.add_zero hlow hhigh h,
      decimalAdjust_decided (move := (· - ·)) BitVec.sub_zero hlow hhigh h⟩,
    fun h => ⟨decimalAdjust_drawn (move := (· + ·)) BitVec.add_zero hlow h,
      decimalAdjust_drawn (move := (· - ·)) BitVec.sub_zero hlow h⟩⟩

/-! ### AAM, AAD (R364, R365) -/

theorem add_mul_eq_ofNat {w : Nat} (a b c : BitVec w) : a + b * c = BitVec.ofNat w (a.toNat + b.toNat * c.toNat) := by
  rw [BitVec.ofNat_add, BitVec.ofNat_mul]
  simp only [BitVec.ofNat_toNat, BitVec.setWidth_eq]

/-- Settles O32: quotient, remainder and sum of bytes are those of their numbers; with a base other than 0, AAM takes no divide fault. -/
theorem baseAdjustCompletes : Obligations.BaseAdjustCompletes := by
  unfold Obligations.BaseAdjustCompletes
  intro s base
  rw [← BitVec.udiv_def, ← BitVec.umod_def, ← add_mul_eq_ofNat]
  exact ⟨fun h => if_neg h, rfl⟩

end Sys2Proof.Machine
end

section
/-! SUPPORT. What a count of steps of each shift and rotate leaves in the operand, CF and OF (44_logic_shift.md R400-R408): rotations of a
word add up, one step is a shift or a rotation by one, and through a carry a step rotates the word CF:operand. -/

namespace Sys2Proof.Machine

section
variable {w : Nat}

/-! ### Rotations of a word -/

theorem rotateLeft_add (x : BitVec w) (m n : Nat) : x.rotateLeft (m + n) = (x.rotateLeft m).rotateLeft n := by
  apply BitVec.eq_of_getMsbD_eq
  intro i hi
  have hw : (n + i) % w < w := Nat.mod_lt _ (by omega)
  simp only [BitVec.getMsbD_rotateLeft, hi, hw, decide_true, Bool.true_and, Nat.add_mod_mod, Nat.add_assoc]

/-- A rotation to the right, as one index for every bit. -/
theorem getLsbD_rotateRight_of_lt_width (x : BitVec w) (n : Nat) {i : Nat} (hi : i < w) :
    (x.rotateRight n).getLsbD i = x.getLsbD ((n + i) % w) := by
  have hn : n % w < w := Nat.mod_lt _ (by omega)
  rw [BitVec.getLsbD_rotateRight, ← Nat.mod_add_mod n w i]
  generalize n % w = r at hn
  by_cases h : i < w - r
  · rw [Nat.mod_eq_of_lt (by omega), decide_eq_true h, cond_true]
  · rw [Nat.mod_eq_sub_mod (by omega), Nat.mod_eq_of_lt (by omega), decide_eq_false h, cond_false, decide_eq_true hi, Bool.true_and,
      show i - (w - r) = r + i - w by omega]

theorem rotateRight_add (x : BitVec w) (m n : Nat) : x.rotateRight (m + n) = (x.rotateRight m).rotateRight n := by
  apply BitVec.eq_of_getLsbD_eq
  intro i hi
  rw [getLsbD_rotateRight_of_lt_width _ _ hi, getLsbD_rotateRight_of_lt_width _ _ hi,
    getLsbD_rotateRight_of_lt_width _ _ (Nat.mod_lt _ (by omega)), Nat.add_mod_mod, Nat.add_assoc]

theorem rotateLeft_width (x : BitVec w) : x.rotateLeft w = x := by
  apply BitVec.eq_of_getMsbD_eq
  intro i hi
  simp only [BitVec.getMsbD_rotateLeft, hi, decide_true, Bool.true_and, Nat.add_mod_left, Nat.mod_eq_of_lt hi]

theorem rotateRight_width (x : BitVec w) : x.rotateRight w = x := by
  apply BitVec.eq_of_getLsbD_eq
  intro i hi
  rw [getLsbD_rotateRight_of_lt_width _ _ hi, Nat.add_mod_left, Nat.mod_eq_of_lt hi]

theorem rotateLeft_zero (x : BitVec w) : x.rotateLeft 0 = x := by
  rw [← Nat.mod_self w, BitVec.rotateLeft_mod_eq_rotateLeft, rotateLeft_width]

theorem rotateRight_zero (x : BitVec w) : x.rotateRight 0 = x := by
  rw [← Nat.mod_self w, BitVec.rotateRight_mod_eq_rotateRight, rotateRight_width]

section
variable (hw : 1 < w) (x : BitVec w)
include hw

theorem getLsbD_rotateLeft_one {i : Nat} (hi : i < w) :
    (x.rotateLeft 1).getLsbD i = if i = 0 then x.msb else x.getLsbD (i - 1) := by
  rw [BitVec.getLsbD_rotateLeft, Nat.mod_eq_of_lt hw]
  by_cases h : i = 0
  · rw [if_pos h, h, BitVec.msb_eq_getLsbD_last]
    rfl
  · rw [if_neg h, decide_eq_false (by omega), cond_false, decide_eq_true hi, Bool.true_and]

theorem getLsbD_rotateRight_one {i : Nat} (hi : i < w) :
    (x.rotateRight 1).getLsbD i = if i = w - 1 then x.getLsbD 0 else x.getLsbD (1 + i) := by
  rw [getLsbD_rotateRight_of_lt_width _ _ hi]
  by_cases h : i = w - 1
  · rw [if_pos h, h, Nat.add_sub_of_le hw.le, Nat.mod_self]
  · rw [if_neg h, Nat.mod_eq_of_lt (by omega)]

/-- A rotation to the left moves the high bit to the low end. -/
theorem getLsbD_zero_rotateLeft_one : (x.rotateLeft 1).getLsbD 0 = x.msb := by
  rw [getLsbD_rotateLeft_one hw _ (by omega), if_pos rfl]

/-- A rotation to the right moves the low bit to the high end. -/
theorem msb_rotateRight_one : (x.rotateRight 1).msb = x.getLsbD 0 := by
  rw [BitVec.msb_eq_getLsbD_last, getLsbD_rotateRight_one hw _ (by omega), if_pos rfl]

end

/-! ### One step (R401-R407) -/

section
variable (hw : 1 < w) (v : BitVec w) (b : Bool)
include hw

theorem getLsbD_lowBit (i : Nat) : (lowBit b : BitVec w).getLsbD i = (decide (i = 0) && b) := by
  cases b <;> simp [lowBit, BitVec.getLsbD_one, show 0 < w by omega]

/-- The operand after a step of ROL or RCL, bit by bit: `b` comes in at the low end. -/
theorem getLsbD_shiftLeft_or_lowBit {i : Nat} (hi : i < w) :
    (v <<< 1 ||| lowBit b).getLsbD i = if i = 0 then b else v.getLsbD (i - 1) := by
  rw [BitVec.getLsbD_or, BitVec.getLsbD_shiftLeft, getLsbD_lowBit hw]
  by_cases h : i = 0
  · simp [h]
  · simp [h, hi]

/-- The operand after a step of ROR, RCR or SAR, bit by bit: `b` comes in at the high end. -/
theorem getLsbD_shiftRight_or_highBit {i : Nat} (hi : i < w) :
    (v >>> 1 ||| lowBit b <<< (w - 1)).getLsbD i = if i = w - 1 then b else v.getLsbD (1 + i) := by
  rw [BitVec.getLsbD_or, BitVec.getLsbD_ushiftRight, BitVec.getLsbD_shiftLeft, getLsbD_lowBit hw]
  by_cases h : i = w - 1
  · simp [h, show w ≤ 1 + (w - 1) by omega, show w - 1 < w by omega]
  · simp [h, show i < w - 1 by omega]

theorem shiftOnce_rol : shiftOnce .rol b v = v.rotateLeft 1 := by
  apply BitVec.eq_of_getLsbD_eq
  intro i hi
  rw [shiftOnce, getLsbD_shiftLeft_or_lowBit hw _ _ hi, getLsbD_rotateLeft_one hw _ hi]

theorem shiftOnce_ror : shiftOnce .ror b v = v.rotateRight 1 := by
  apply BitVec.eq_of_getLsbD_eq
  intro i hi
  rw [shiftOnce, getLsbD_shiftRight_or_highBit hw _ _ hi, getLsbD_rotateRight_one hw _ hi]

theorem shiftOnce_sar : shiftOnce .sar b v = v.sshiftRight 1 := by
  apply BitVec.eq_of_getLsbD_eq
  intro i hi
  rw [shiftOnce, getLsbD_shiftRight_or_highBit hw _ _ hi, BitVec.getLsbD_sshiftRight, decide_eq_false (show ¬w ≤ i by omega)]
  by_cases h : i = w - 1
  · rw [if_pos h, if_neg (by omega), Bool.not_false, Bool.true_and]
  · rw [if_neg h, if_pos (by omega), Bool.not_false, Bool.true_and]

/-- A step of RCL rotates CF:operand to the left: the high bit goes to CF and CF comes in at the low end (R403). -/
theorem cons_shiftOnce_rcl : BitVec.cons (shiftedOut .rcl v) (shiftOnce .rcl b v) = (BitVec.cons b v).rotateLeft 1 := by
  apply BitVec.eq_of_getLsbD_eq
  intro i hi
  rw [BitVec.getLsbD_cons, getLsbD_rotateLeft_one (by omega) _ hi, BitVec.msb_cons, BitVec.getLsbD_cons]
  by_cases h : i = w
  · rw [if_pos h, if_neg (by omega), if_neg (by omega), h]
    exact BitVec.msb_eq_getLsbD_last v
  · rw [if_neg h, if_neg (show i - 1 ≠ w by omega), shiftOnce, getLsbD_shiftLeft_or_lowBit hw _ _ (by omega)]

/-- A step of RCR rotates CF:operand to the right: the low bit goes to CF and CF comes in at the high end (R404). -/
theorem cons_shiftOnce_rcr : BitVec.cons (shiftedOut .rcr v) (shiftOnce .rcr b v) = (BitVec.cons b v).rotateRight 1 := by
  apply BitVec.eq_of_getLsbD_eq
  intro i hi
  rw [BitVec.getLsbD_cons, getLsbD_rotateRight_one (by omega) _ hi, BitVec.getLsbD_cons, BitVec.getLsbD_cons]
  by_cases h : i = w
  · rw [if_pos h, if_pos (by omega), if_neg (by omega)]
    rfl
  · rw [if_neg h, if_neg (by omega), shiftOnce, getLsbD_shiftRight_or_highBit hw _ _ (by omega)]
    exact if_congr (by omega) rfl rfl

end

/-! ### A count of steps (R400, R408) -/

/-- The recursion of `shiftSteps`, with the last step taken off. -/
theorem shiftSteps_succ (op : ShiftOp) (n : Nat) (p : BitVec w × Word) :
    shiftSteps op (n + 1) p = shiftStep op (shiftSteps op n p) := by
  induction n generalizing p with
  | zero => rfl
  | succ n ih => exact ih (shiftStep op p)

/-- The operand after `n` steps is `g n` where one step, whatever the carry, takes `g n` to `g (n + 1)`. -/
theorem fst_shiftSteps {op : ShiftOp} {v : BitVec w} {g : Nat → BitVec w} (zero : g 0 = v)
    (succ : ∀ n cf, shiftOnce op cf (g n) = g (n + 1)) (n : Nat) (f : Word) : (shiftSteps op n (v, f)).1 = g n := by
  induction n with
  | zero => exact zero.symm
  | succ n ih => rw [shiftSteps_succ, shiftStep, ih, succ]

theorem fst_shiftSteps_shl (n : Nat) (v : BitVec w) (f : Word) : (shiftSteps .shl n (v, f)).1 = v <<< n :=
  fst_shiftSteps (op := .shl) (BitVec.shiftLeft_zero v) (fun n _ => (BitVec.shiftLeft_add v n 1).symm) n f

theorem fst_shiftSteps_shr (n : Nat) (v : BitVec w) (f : Word) : (shiftSteps .shr n (v, f)).1 = v >>> n :=
  fst_shiftSteps (op := .shr) (BitVec.ushiftRight_zero v) (fun n _ => (BitVec.shiftRight_add v n 1).symm) n f

theorem fst_shiftSteps_sar (hw : 1 < w) (n : Nat) (v : BitVec w) (f : Word) : (shiftSteps .sar n (v, f)).1 = v.sshiftRight n :=
  fst_shiftSteps BitVec.sshiftRight_zero (fun _ cf => (shiftOnce_sar hw _ cf).trans BitVec.sshiftRight_add.symm) n f

theorem fst_shiftSteps_rol (hw : 1 < w) (n : Nat) (v : BitVec w) (f : Word) : (shiftSteps .rol n (v, f)).1 = v.rotateLeft n :=
  fst_shiftSteps (rotateLeft_zero v) (fun n cf => (shiftOnce_rol hw _ cf).trans (rotateLeft_add v n 1).symm) n f

theorem fst_shiftSteps_ror (hw : 1 < w) (n : Nat) (v : BitVec w) (f : Word) : (shiftSteps .ror n (v, f)).1 = v.rotateRight n :=
  fst_shiftSteps (rotateRight_zero v) (fun n cf => (shiftOnce_ror hw _ cf).trans (rotateRight_add v n 1).symm) n f

theorem getFlag_CF_shiftStep (op : ShiftOp) (p : BitVec w × Word) : getFlag .CF (shiftStep op p).2 = shiftedOut op p.1 := by
  simp [shiftStep]

/-- OF after a step is that of the carry and the operand the step leaves (R408). -/
theorem getFlag_OF_shiftStep (op : ShiftOp) (p : BitVec w × Word) :
    getFlag .OF (shiftStep op p).2 = shiftOverflow op (getFlag .CF (shiftStep op p).2) (shiftStep op p).1 := by
  rw [getFlag_CF_shiftStep]
  exact getFlag_putFlag_self ..

/-- The word CF:operand that RCL and RCR rotate (R403, R404). -/
def withCarry (p : BitVec w × Word) : BitVec (w + 1) := BitVec.cons (getFlag .CF p.2) p.1

theorem setWidth_withCarry (p : BitVec w × Word) : (withCarry p).setWidth w = p.1 := BitVec.setWidth_cons

theorem msb_withCarry (p : BitVec w × Word) : (withCarry p).msb = getFlag .CF p.2 := BitVec.msb_cons

theorem withCarry_shiftSteps_rcl (hw : 1 < w) (n : Nat) (p : BitVec w × Word) :
    withCarry (shiftSteps .rcl n p) = (withCarry p).rotateLeft n := by
  induction n with
  | zero => exact (rotateLeft_zero _).symm
  | succ n ih => rw [shiftSteps_succ, rotateLeft_add, ← ih, withCarry, getFlag_CF_shiftStep]; exact cons_shiftOnce_rcl hw _ _

theorem withCarry_shiftSteps_rcr (hw : 1 < w) (n : Nat) (p : BitVec w × Word) :
    withCarry (shiftSteps .rcr n p) = (withCarry p).rotateRight n := by
  induction n with
  | zero => exact (rotateRight_zero _).symm
  | succ n ih => rw [shiftSteps_succ, rotateRight_add, ← ih, withCarry, getFlag_CF_shiftStep]; exact cons_shiftOnce_rcr hw _ _

/-- Operand and CF are the parts of CF:operand. -/
theorem parts_of_withCarry {p : BitVec w × Word} {x : BitVec (w + 1)} (h : withCarry p = x) :
    p.1 = x.setWidth w ∧ getFlag .CF p.2 = x.msb :=
  ⟨h ▸ (setWidth_withCarry p).symm, h ▸ (msb_withCarry p).symm⟩

/-- Where CF:operand is what it was, so are operand and CF. -/
theorem parts_eq_of_withCarry_eq {p q : BitVec w × Word} (h : withCarry p = withCarry q) :
    p.1 = q.1 ∧ getFlag .CF p.2 = getFlag .CF q.2 := by
  rw [← setWidth_withCarry q, ← msb_withCarry q]
  exact parts_of_withCarry h

/-! ### CF and OF after at least one step -/

section
variable {n : Nat} (hn : 1 ≤ n)
include hn

theorem shiftSteps_of_pos (op : ShiftOp) (p : BitVec w × Word) : shiftSteps op n p = shiftStep op (shiftSteps op (n - 1) p) := by
  rw [← shiftSteps_succ, Nat.sub_add_cancel hn]

/-- CF is the bit the last step shifted out. -/
theorem getFlag_CF_shiftSteps (op : ShiftOp) (p : BitVec w × Word) :
    getFlag .CF (shiftSteps op n p).2 = shiftedOut op (shiftSteps op (n - 1) p).1 := by
  rw [shiftSteps_of_pos hn, getFlag_CF_shiftStep]

theorem getFlag_OF_shiftSteps (op : ShiftOp) (p : BitVec w × Word) :
    getFlag .OF (shiftSteps op n p).2 = shiftOverflow op (getFlag .CF (shiftSteps op n p).2) (shiftSteps op n p).1 := by
  rw [shiftSteps_of_pos hn]
  exact getFlag_OF_shiftStep op _

variable (v : BitVec w) (f : Word)

theorem getFlag_CF_shiftSteps_shl : getFlag .CF (shiftSteps .shl n (v, f)).2 = (decide (n ≤ w) && v.getLsbD (w - n)) := by
  rw [getFlag_CF_shiftSteps hn, fst_shiftSteps_shl]
  show (v <<< (n - 1)).msb = _
  rw [BitVec.msb_shiftLeft, BitVec.getMsbD, show w - 1 - (n - 1) = w - n by omega, decide_eq_decide.2 (show n - 1 < w ↔ n ≤ w by omega)]

theorem getFlag_CF_shiftSteps_shr : getFlag .CF (shiftSteps .shr n (v, f)).2 = v.getLsbD (n - 1) := by
  rw [getFlag_CF_shiftSteps hn, fst_shiftSteps_shr]
  exact BitVec.getLsbD_ushiftRight ..

theorem getFlag_CF_shiftSteps_sar (hw : 1 < w) :
    getFlag .CF (shiftSteps .sar n (v, f)).2 = if n ≤ w then v.getLsbD (n - 1) else v.msb := by
  rw [getFlag_CF_shiftSteps hn, fst_shiftSteps_sar hw]
  show (v.sshiftRight (n - 1)).getLsbD 0 = _
  rw [BitVec.getLsbD_sshiftRight, decide_eq_false (show ¬w ≤ 0 by omega)]
  exact if_congr (by omega) rfl rfl

theorem getFlag_CF_shiftSteps_rol (hw : 1 < w) : getFlag .CF (shiftSteps .rol n (v, f)).2 = (v.rotateLeft n).getLsbD 0 := by
  rw [getFlag_CF_shiftSteps hn, fst_shiftSteps_rol hw]
  show (v.rotateLeft (n - 1)).msb = _
  rw [← getLsbD_zero_rotateLeft_one hw, ← rotateLeft_add, Nat.sub_add_cancel hn]

theorem getFlag_CF_shiftSteps_ror (hw : 1 < w) : getFlag .CF (shiftSteps .ror n (v, f)).2 = (v.rotateRight n).msb := by
  rw [getFlag_CF_shiftSteps hn, fst_shiftSteps_ror hw]
  show (v.rotateRight (n - 1)).getLsbD 0 = _
  rw [← msb_rotateRight_one hw, ← rotateRight_add, Nat.sub_add_cancel hn]

end

end

/-- Settles O21: the operand by `fst_shiftSteps` and the word CF:operand by `withCarry`; CF is what the last step shifted out. -/
theorem shiftStepsByCount : Obligations.ShiftStepsByCount := by
  unfold Obligations.ShiftStepsByCount
  intro w n v f hw
  have hw : 1 < w := by omega
  have rcl := withCarry_shiftSteps_rcl hw (w + 1) (v, f)
  have rcr := withCarry_shiftSteps_rcr hw (w + 1) (v, f)
  rw [rotateLeft_width] at rcl
  rw [rotateRight_width] at rcr
  obtain ⟨rclOperand, rclCarry⟩ := parts_eq_of_withCarry_eq rcl
  obtain ⟨rcrOperand, rcrCarry⟩ := parts_eq_of_withCarry_eq rcr
  exact ⟨fst_shiftSteps_shl n v f, fst_shiftSteps_shr n v f, fst_shiftSteps_sar hw n v f, fst_shiftSteps_rol hw n v f,
    fst_shiftSteps_ror hw n v f, parts_of_withCarry (withCarry_shiftSteps_rcl hw n (v, f)),
    parts_of_withCarry (withCarry_shiftSteps_rcr hw n (v, f)), rclOperand, rclCarry, rcrOperand, rcrCarry,
    fun hn => getFlag_CF_shiftSteps_shl hn v f, fun hn => getFlag_CF_shiftSteps_shr hn v f,
    fun hn => getFlag_CF_shiftSteps_sar hn v f hw, fun hn => getFlag_CF_shiftSteps_rol hn v f hw,
    fun hn => getFlag_CF_shiftSteps_ror hn v f hw, fun op hn => getFlag_OF_shiftSteps hn op (v, f)⟩

end Sys2Proof.Machine
end

section
/-! SUPPORT. The logic instructions, shifts and rotates under the quiet host (44_logic_shift.md R390-R394, R400-R407): their forms from what
each does to values, and what a count, zero or not, does to the operand and the flags. -/

namespace Sys2Proof.Machine

/-- Settles O24: the forms of AND, OR, XOR and TEST, by `egForms` and `geForms`. -/
theorem logicCompletes : Obligations.LogicCompletes :=
  ⟨egForms .and, geForms .and, egForms .or, geForms .or, egForms .xor, geForms .xor, egForms .test⟩

/-! ### The forms of a shift or rotate (R400) -/

theorem shiftRm8_quiet (op : ShiftOp) (n : Nat) (e : Rm8) {s : State} (h : Quiet s) :
    shiftRm8 op n e s = .next (let r := shiftValue op n (e.value s) (e.seen s); e.stored s r.1 r.2) :=
  modifyRm8_quiet e (shiftValue op n) h (quiet_shiftValue op n)

theorem shiftRm16_quiet (op : ShiftOp) (n : Nat) (e : Rm16) {s : State} (h : Quiet s) :
    shiftRm16 op n e s = .next (let r := shiftValue op n (e.value s) (e.seen s); e.stored s r.1 r.2) :=
  modifyRm16_quiet e (shiftValue op n) h (quiet_shiftValue op n)

/-- An instruction whose four forms are those of `op` completes in them. For the instructions of the model each hypothesis holds by
definition. -/
theorem shiftForms (op : ShiftOp) {eb1 ebCl : Rm8 → Instr} {ev1 evCl : Rm16 → Instr}
    (heb1 : ∀ e s, exec (eb1 e) s = shiftRm8 op 1 e s := by intros; rfl)
    (hebCl : ∀ e s, exec (ebCl e) s = shiftRm8 op (clCount s) e s := by intros; rfl)
    (hev1 : ∀ e s, exec (ev1 e) s = shiftRm16 op 1 e s := by intros; rfl)
    (hevCl : ∀ e s, exec (evCl e) s = shiftRm16 op (clCount s) e s := by intros; rfl) :
    ShiftForms op eb1 ebCl ev1 evCl := fun s hs =>
  ⟨fun e => (heb1 e s).trans (shiftRm8_quiet op 1 e hs), fun e => (hev1 e s).trans (shiftRm16_quiet op 1 e hs),
    fun e => (hebCl e s).trans (shiftRm8_quiet op (clCount s) e hs), fun e => (hevCl e s).trans (shiftRm16_quiet op (clCount s) e hs)⟩

/-! ### What a count does to operand and flags (R400) -/

section
variable {w n : Nat} {op : ShiftOp} (hn : n ≠ 0) (v : BitVec w) (s : State)
include hn

theorem shiftValue_rotate (h : op.isShift = false) :
    shiftValue op n v s = ((shiftSteps op n (v, s.flags)).1, s.mapFlags fun f => (shiftSteps op n (v, f)).2) := by
  simp only [shiftValue, if_neg hn, h, Bool.false_eq_true, if_false]
  rfl

theorem shiftValue_shift (h : op.isShift = true) :
    shiftValue op n v s = ((shiftSteps op n (v, s.flags)).1,
      (s.mapFlags fun f => putSZP (shiftSteps op n (v, f)).1 (shiftSteps op n (v, f)).2).freeFlag .AF) := by
  simp only [shiftValue, if_neg hn, h, if_true]
  rfl

end

theorem isShift_of_mem_rotates : ∀ op ∈ [ShiftOp.rol, .ror, .rcl, .rcr], op.isShift = false := by decide

theorem isShift_of_mem_shifts : ∀ op ∈ [ShiftOp.shl, .shr, .sar], op.isShift = true := by decide

/-- Settles O33: the forms by `shiftForms`, a count of 0 by definition, any other by `shiftValue_rotate` and `shiftValue_shift`. -/
theorem shiftsComplete : Obligations.ShiftsComplete :=
  ⟨shiftForms .rol, shiftForms .ror, shiftForms .rcl, shiftForms .rcr, shiftForms .shl, shiftForms .shr, shiftForms .sar,
    fun _ op _ v s => ⟨rfl, fun hn h => shiftValue_rotate hn v s (isShift_of_mem_rotates op h),
      fun hn h => shiftValue_shift hn v s (isShift_of_mem_shifts op h)⟩⟩

end Sys2Proof.Machine
end

section
/-! SUPPORT. The string instructions under the quiet host (45_string.md R430-R444): the body of each answers its round, a repeat loop runs
that round CX times or, where it tests ZF, up to the first round that stops it, and what the rounds leave in CX, DI and memory. -/

namespace Sys2Proof.Machine

/-! ### The round of each body (R440-R444) -/

/-- Under the quiet host `body` answers the round `f`, which keeps the host quiet and leaves CX to the loop. -/
structure RunsRound (body : State → Out) (f : State → State) : Prop where
  next : ∀ s, Quiet s → body s = .next (f s)
  quiet : ∀ s, Quiet s → Quiet (f s)
  cx : ∀ s, (f s).reg .cx = s.reg .cx

theorem runsRound_moved8 : RunsRound movsBody8 moved8 :=
  ⟨fun _ => movsBody8_quiet, fun _ => quiet_moved8, storesElement_moved8.cx⟩

theorem runsRound_moved16 : RunsRound movsBody16 moved16 :=
  ⟨fun _ => movsBody16_quiet, fun _ => quiet_moved16, storesElement_moved16.cx⟩

theorem runsRound_filled8 : RunsRound stosBody8 filled8 :=
  ⟨fun _ => stosBody8_quiet, fun _ => quiet_filled8, storesElement_filled8.cx⟩

theorem runsRound_filled16 : RunsRound stosBody16 filled16 :=
  ⟨fun _ => stosBody16_quiet, fun _ => quiet_filled16, storesElement_filled16.cx⟩

theorem runsRound_loaded8 : RunsRound lodsBody8 loaded8 :=
  ⟨fun _ => lodsBody8_quiet, fun _ => quiet_loaded8,
    fun s => by simp [loaded8, State.reg_setReg8_ne _ _ (show Reg16.cx ≠ wideReg .al by decide)]⟩

theorem runsRound_loaded16 : RunsRound lodsBody16 loaded16 :=
  ⟨fun _ => lodsBody16_quiet, fun _ => quiet_loaded16, fun s => by simp [loaded16]⟩

theorem runsRound_compared8 : RunsRound cmpsBody8 compared8 :=
  ⟨fun _ => cmpsBody8_quiet, fun _ => quiet_compared8, fun s => by simp [compared8]⟩

theorem runsRound_compared16 : RunsRound cmpsBody16 compared16 :=
  ⟨fun _ => cmpsBody16_quiet, fun _ => quiet_compared16, fun s => by simp [compared16]⟩

theorem runsRound_scanned8 : RunsRound scasBody8 scanned8 :=
  ⟨fun _ => scasBody8_quiet, fun _ => quiet_scanned8, fun s => by simp [scanned8]⟩

theorem runsRound_scanned16 : RunsRound scasBody16 scanned16 :=
  ⟨fun _ => scasBody16_quiet, fun _ => quiet_scanned16, fun s => by simp [scanned16]⟩

/-! ### What rounds leave in the registers (R431, R432) -/

section
variable {body : State → Out} {f : State → State}

/-- What each round and its count of CX keep, any number of rounds keeps. -/
theorem rounds_keep {α : Type} {get : State → α} (keep : ∀ t, get (countDown (f t)) = get t) (n : Nat) (s : State) :
    get (rounds f n s) = get s := by
  induction n generalizing s with
  | zero => rfl
  | succ n ih => exact (ih _).trans (keep s)

theorem RunsRound.reg_cx_rounds (h : RunsRound body f) (k : Nat) (s : State) :
    (rounds f k s).reg .cx = s.reg .cx - BitVec.ofNat 16 k := by
  induction k generalizing s with
  | zero => exact (BitVec.sub_zero _).symm
  | succ k ih =>
    rw [rounds, ih, reg_countDown_cx, h.cx, BitVec.ofNat_add, BitVec.add_comm]
    exact (sub_add_eq_sub_sub _ _ _).symm

theorem RunsRound.reg_cx_allRounds (h : RunsRound body f) (s : State) : (rounds f (s.reg .cx).toNat s).reg .cx = 0 := by
  rw [h.reg_cx_rounds, BitVec.ofNat_toNat, BitVec.setWidth_eq]
  exact BitVec.sub_self _

theorem StoresElement.reg_di_rounds {place : Word → Word → List Addr} {w : Word} (h : StoresElement place w f) (n : Nat) (s : State) :
    (Machine.rounds f n s).reg .di = Machine.elementOffset s w n := by
  induction n generalizing s with
  | zero => exact (elementOffset_zero s w).symm
  | succ n ih => exact (ih _).trans (h.elementOffset s n)

/-! ### One round, or a repeat loop that does not test ZF (R432, R433) -/

theorem RunsRound.stringOp_once (h : RunsRound body f) (testsZf : Bool) {s : State} (hs : Quiet s) (hr : s.rep = false) :
    stringOp body testsZf s = .next (f s) := by
  rw [stringOp, hr]
  exact h.next s hs

/-- The iteration bound of the loop is above CX (log entry 11). -/
theorem toNat_le_repeatBound (v : Word) (n : Nat) : v.toNat ≤ 0x10000 * (n + 1) := by
  have := v.isLt
  omega

theorem RunsRound.stringOp_transfer (h : RunsRound body f) {s : State} (hs : Quiet s) (hr : s.rep = true) :
    stringOp body false s = .next (rounds f (s.reg .cx).toNat s) := by
  rw [stringOp, hr]
  exact repeatLoop_transfer h.next h.quiet h.cx _ _ s hs rfl (toNat_le_repeatBound _ _)

/-! ### A repeat loop that tests ZF (R432, R433) -/

/-- The loop that tests ZF ends after `k` rounds of `f`: the rounds before let it go on, and round `k` uses up CX or stops it. -/
def EndsAfter (f : State → State) (k : Nat) (s : State) : Prop :=
  (∀ j, 1 ≤ j → j < k → goesOn (rounds f j s)) ∧ (k = (s.reg .cx).toNat ∨ (1 ≤ k ∧ ¬ goesOn (rounds f k s)))

theorem endsAfter_zero {s : State} (h : (s.reg .cx).toNat = 0) : EndsAfter f 0 s :=
  ⟨fun _ _ hj => absurd hj (Nat.not_lt_zero _), .inl h.symm⟩

theorem endsAfter_one {s : State} (h : ¬ goesOn (countDown (f s))) : EndsAfter f 1 s :=
  ⟨fun _ hj hj' => absurd hj' (Nat.not_lt.2 hj), .inr ⟨Nat.le_refl 1, h⟩⟩

theorem endsAfter_succ {k : Nat} {s : State} (hcx : (s.reg .cx).toNat = ((countDown (f s)).reg .cx).toNat + 1)
    (on : goesOn (countDown (f s))) (h : EndsAfter f k (countDown (f s))) : EndsAfter f (k + 1) s := by
  obtain ⟨before, last⟩ := h
  refine ⟨fun j hj hjk => ?_, last.imp (fun e => by omega) fun ⟨_, stop⟩ => ⟨Nat.le_add_left 1 k, stop⟩⟩
  match j with
  | 1 => exact on
  | j + 2 => exact before (j + 1) (Nat.le_add_left 1 j) (Nat.lt_of_succ_lt_succ hjk)

theorem RunsRound.repeatLoop_goesOn (h : RunsRound body f) (bound : Nat) {s : State} (hs : Quiet s) (h0 : s.reg .cx ≠ 0)
    (on : goesOn (countDown (f s))) : repeatLoop body true (bound + 1) s = repeatLoop body true bound (countDown (f s)) := by
  rw [repeatLoop, if_neg h0, h.next s hs]
  exact if_neg (by simpa [goesOn, countDown] using on)

theorem RunsRound.repeatLoop_stops (h : RunsRound body f) (bound : Nat) {s : State} (hs : Quiet s) (h0 : s.reg .cx ≠ 0)
    (stop : ¬ goesOn (countDown (f s))) : repeatLoop body true (bound + 1) s = .next (countDown (f s)) := by
  rw [repeatLoop, if_neg h0, h.next s hs]
  exact if_pos (by simpa [goesOn, countDown] using stop)

theorem RunsRound.repeatLoop_comparison (h : RunsRound body f) (n : Nat) :
    ∀ (bound : Nat) (s : State), Quiet s → (s.reg .cx).toNat = n → n ≤ bound →
      ∃ k ≤ n, repeatLoop body true bound s = .next (rounds f k s) ∧ EndsAfter f k s := by
  induction n with
  | zero =>
    intro bound s _ hn _
    refine ⟨0, Nat.le_refl 0, ?_, endsAfter_zero hn⟩
    unfold repeatLoop
    exact if_pos (BitVec.eq_of_toNat_eq hn)
  | succ n ih =>
    intro bound s hs hn hle
    obtain ⟨bound, rfl⟩ : ∃ b, bound = b + 1 := ⟨bound - 1, by omega⟩
    have h0 : s.reg .cx ≠ 0 := fun e => by simp [e] at hn
    have left : ((countDown (f s)).reg .cx).toNat = n := by
      rw [reg_countDown_cx, h.cx]
      exact toNat_sub_one hn
    by_cases on : goesOn (countDown (f s))
    · obtain ⟨k, hk, run, ends⟩ := ih bound (countDown (f s)) (h.quiet s hs) left (by omega)
      exact ⟨k + 1, by omega, (h.repeatLoop_goesOn bound hs h0 on).trans run, endsAfter_succ (by omega) on ends⟩
    · exact ⟨1, by omega, h.repeatLoop_stops bound hs h0 on, endsAfter_one on⟩

theorem RunsRound.stringOp_comparison (h : RunsRound body f) {s : State} (hs : Quiet s) (hr : s.rep = true) :
    ∃ k ≤ (s.reg .cx).toNat, stringOp body true s = .next (rounds f k s) ∧ EndsAfter f k s := by
  rw [stringOp, hr]
  exact h.repeatLoop_comparison _ _ s hs rfl (toNat_le_repeatBound _ _)

end

/-- Settles O43: the loop by `stringOp_transfer`, CX by `reg_cx_allRounds`, DI by `reg_di_rounds`. -/
theorem repeatedTransfersRunCxRounds : Obligations.RepeatedTransfersRunCxRounds := by
  unfold Obligations.RepeatedTransfersRunCxRounds
  intro s hs hr n
  have cx : ∀ body ∈ [moved8, moved16, loaded8, loaded16, filled8, filled16], (rounds body n s).reg .cx = 0 := by
    simp only [List.forall_mem_cons, List.not_mem_nil, false_implies, implies_true, and_true]
    exact ⟨runsRound_moved8.reg_cx_allRounds s, runsRound_moved16.reg_cx_allRounds s, runsRound_loaded8.reg_cx_allRounds s,
      runsRound_loaded16.reg_cx_allRounds s, runsRound_filled8.reg_cx_allRounds s, runsRound_filled16.reg_cx_allRounds s⟩
  exact ⟨runsRound_moved8.stringOp_transfer hs hr, runsRound_moved16.stringOp_transfer hs hr, runsRound_loaded8.stringOp_transfer hs hr,
    runsRound_loaded16.stringOp_transfer hs hr, runsRound_filled8.stringOp_transfer hs hr, runsRound_filled16.stringOp_transfer hs hr, cx,
    storesElement_moved8.reg_di_rounds n s, storesElement_moved16.reg_di_rounds n s, storesElement_filled8.reg_di_rounds n s,
    storesElement_filled16.reg_di_rounds n s⟩

/-- A comparison of the model is a `stringOp` whose body runs the round. -/
theorem exec_comparison {i : Instr} {f : State → State}
    (hi : (i, f) = (.cmpsb, compared8) ∨ (i, f) = (.cmpsw, compared16) ∨ (i, f) = (.scasb, scanned8) ∨ (i, f) = (.scasw, scanned16)) :
    ∃ body, exec i = stringOp body true ∧ RunsRound body f := by
  obtain ⟨rfl, rfl⟩ | ⟨rfl, rfl⟩ | ⟨rfl, rfl⟩ | ⟨rfl, rfl⟩ := hi
  · exact ⟨cmpsBody8, rfl, runsRound_compared8⟩
  · exact ⟨cmpsBody16, rfl, runsRound_compared16⟩
  · exact ⟨scasBody8, rfl, runsRound_scanned8⟩
  · exact ⟨scasBody16, rfl, runsRound_scanned16⟩

/-- Settles O44: the loop by `stringOp_comparison`, CX by `reg_cx_rounds`. -/
theorem repeatedComparisonsStopOnZf : Obligations.RepeatedComparisonsStopOnZf := by
  unfold Obligations.RepeatedComparisonsStopOnZf
  intro s i f hs hr hi
  obtain ⟨body, meaning, round⟩ := exec_comparison hi
  obtain ⟨k, hk, run, ends⟩ := round.stringOp_comparison hs hr
  exact ⟨k, hk, (congrFun meaning s).trans run, round.reg_cx_rounds k s, ends⟩

/-! ### What rounds of STOSB leave in memory (R431, R444) -/

theorem peek_filled8 (s : State) (a : Addr) (h : Memory.wf s.mem = true) :
    (filled8 s).peek a = if a = lin (s.sreg .es) (s.reg .di) then s.reg8 .al else s.peek a := by
  split
  · subst a
    exact State.peek_storeByte_self s _ _ _ h
  · exact State.peek_storeByte_ne s _ _ _ ‹_›

theorem memory_wf_countDown_filled8 {s : State} (h : Memory.wf s.mem = true) : Memory.wf (countDown (filled8 s)).mem = true :=
  State.memory_wf_storeByte s _ _ _ h

theorem reg8_al_countDown_filled8 (s : State) : (countDown (filled8 s)).reg8 .al = s.reg8 .al := by
  simp [countDown, filled8, State.reg8_setReg, wideReg]

theorem flags_countDown_filled8 (s : State) : (countDown (filled8 s)).flags = s.flags := by simp [countDown, filled8]

theorem mem_byteElements {s : State} {n : Nat} {a : Addr} :
    a ∈ elementAddrs byteAddrs 1 s n ↔ ∃ k < n, a = lin (s.sreg .es) (elementOffset s 1 k) := by
  simp [elementAddrs, byteAddrs]

/-- The byte after the rounds. Every element is given the same AL, so the addresses need not be shown distinct. -/
theorem peek_rounds_filled8 (n : Nat) (s : State) (a : Addr) (h : Memory.wf s.mem = true) :
    (rounds filled8 n s).peek a = if a ∈ elementAddrs byteAddrs 1 s n then s.reg8 .al else s.peek a := by
  induction n generalizing s with
  | zero => rfl
  | succ n ih =>
    have first : (countDown (filled8 s)).peek a = if a = lin (s.sreg .es) (s.reg .di) then s.reg8 .al else s.peek a :=
      peek_filled8 s a h
    rw [rounds, ih _ (memory_wf_countDown_filled8 h), reg8_al_countDown_filled8, first, storesElement_filled8.elementAddrs_succ]
    by_cases later : a ∈ elementAddrs byteAddrs 1 (countDown (filled8 s)) n
    · rw [if_pos later, if_pos (List.mem_append_right _ later)]
    · simp only [byteAddrs, List.singleton_append, List.mem_cons, later, or_false, if_false]

/-- Settles O45: the bytes by `peek_rounds_filled8`, CX and DI as in O43, the flags since no round writes them. -/
theorem repStosbFillsMemory : Obligations.RepStosbFillsMemory := by
  unfold Obligations.RepStosbFillsMemory
  intro s hs hm hr
  refine ⟨_, runsRound_filled8.stringOp_transfer hs hr, fun k hk => ?_, fun a ha => ?_, runsRound_filled8.reg_cx_allRounds s,
    storesElement_filled8.reg_di_rounds _ s, rounds_keep flags_countDown_filled8 _ s⟩
  · exact (peek_rounds_filled8 _ s _ hm).trans (if_pos (mem_byteElements.2 ⟨k, hk, rfl⟩))
  · have outside : a ∉ elementAddrs byteAddrs 1 s (s.reg .cx).toNat := fun hin =>
      let ⟨k, hk, e⟩ := mem_byteElements.1 hin
      ha k hk e
    exact (peek_rounds_filled8 _ s a hm).trans (if_neg outside)

/-- Settles O42: with no repeat pending the body of each runs once, and answers its round. -/
theorem stringsRunOnce : Obligations.StringsRunOnce := by
  unfold Obligations.StringsRunOnce
  intro s hs hr
  exact ⟨runsRound_moved8.stringOp_once _ hs hr, runsRound_moved16.stringOp_once _ hs hr, runsRound_compared8.stringOp_once _ hs hr,
    runsRound_compared16.stringOp_once _ hs hr, runsRound_scanned8.stringOp_once _ hs hr, runsRound_scanned16.stringOp_once _ hs hr,
    runsRound_loaded8.stringOp_once _ hs hr, runsRound_loaded16.stringOp_once _ hs hr, runsRound_filled8.stringOp_once _ hs hr,
    runsRound_filled16.stringOp_once _ hs hr⟩

end Sys2Proof.Machine
end

section
/-! SUPPORT. Control transfer (46_control.md R470-R508): the conditional jumps and the loops under any host, the jumps, calls and returns under
the quiet host. -/

namespace Sys2Proof.Machine

/-! ### Conditional jumps (R471) -/

/-- JA jumps where JBE does not (R471). -/
theorem execJa_eq_jumpIf_not (rel : Byte) (s : State) : execJa rel s = jumpIf (!(s.flag .CF || s.flag .ZF)) rel s := by
  rw [Bool.not_or, execJa]

/-- JGE jumps where JL does not (R471). -/
theorem execJge_eq_jumpIf_not (rel : Byte) (s : State) : execJge rel s = jumpIf (!(s.flag .SF != s.flag .OF)) rel s := by
  rw [bne, Bool.not_not, execJge]

/-- JG jumps where JLE does not (R471). -/
theorem execJg_eq_jumpIf_not (rel : Byte) (s : State) :
    execJg rel s = jumpIf (!(s.flag .ZF || s.flag .SF != s.flag .OF)) rel s := by
  rw [Bool.not_or, bne, Bool.not_not, execJg]

/-- Settles O46: each is a `jumpIf` on its condition; JA, JGE and JG are those on the negation of JBE's, JL's and JLE's. -/
theorem conditionalJumpsComplete : Obligations.ConditionalJumpsComplete := by
  unfold Obligations.ConditionalJumpsComplete
  intro s rel
  exact ⟨rfl, rfl, rfl, rfl, rfl, rfl, rfl, execJa_eq_jumpIf_not rel s, rfl, rfl, rfl, rfl, rfl, execJge_eq_jumpIf_not rel s, rfl,
    execJg_eq_jumpIf_not rel s, rfl⟩

/-! ### Loops (R505-R507) -/

/-- CX counted down is 0 just where it was 1. -/
theorem cx_countDown_bne_zero (s : State) : ((countDown s).reg .cx != 0) = (s.reg .cx != 1) := by
  have zero_iff : s.reg .cx - 1 = 0 ↔ s.reg .cx = 1 := sub_eq_zero
  rw [countDown, State.reg_setReg_self, Bool.eq_iff_iff, bne_iff_ne, bne_iff_ne, Ne, zero_iff]

/-- Settles O50: each is a `jumpIf` in the state counted down, whose IP is the one before. -/
theorem loopsComplete : Obligations.LoopsComplete := by
  unfold Obligations.LoopsComplete
  intro s rel
  simp only [← cx_countDown_bne_zero]
  exact ⟨rfl, rfl, rfl⟩

/-! ### Unconditional jumps (R490-R494) -/

theorem execJmpEv_quiet {s : State} (e : Rm16) (h : Quiet s) : execJmpEv e s = .next ((e.seen s).setIp (e.value s)) :=
  thenWith_of_next (readRm16_quiet e h) _

theorem execJmpMp_quiet {s : State} (m : MemOp) (h : Quiet s) :
    execJmpMp m s = .next (((m.farSeen s).setIp (m.farOffset s)).setSReg .cs (m.farSegment s)) :=
  thenWith_of_next (readFar_quiet m h) _

/-- Settles O47: the direct jumps are updates of IP and CS, the indirect ones such updates after one read. -/
theorem jumpsComplete : Obligations.JumpsComplete := by
  unfold Obligations.JumpsComplete
  intro s hs
  exact ⟨fun _ => rfl, fun _ => rfl, fun _ _ => rfl, fun e => execJmpEv_quiet e hs, fun m => execJmpMp_quiet m hs⟩

/-! ### Calls (R495-R498) -/

theorem execCallRel16_quiet {s : State} (rel : Word) (h : Quiet s) :
    execCallRel16 rel s = .next ((s.pushed s.ip).setIp (s.ip + rel)) := by
  rw [execCallRel16, push16_quiet _ h, thenDo_next, State.pushed_ip]

/-- A far call pushes CS and then IP, which the first push leaves alone (R496, R498). -/
theorem callFar_quiet {s : State} (off sg : Word) (h : Quiet s) :
    callFar off sg s = .next ((((s.pushed (s.sreg .cs)).pushed s.ip).setSReg .cs sg).setIp off) := by
  rw [callFar, push16_quiet _ h, thenDo_next, push16_quiet _ (quiet_pushed _ h), thenDo_next, State.pushed_ip]

/-- CALL Ev reads its target before the push (R497). -/
theorem execCallEv_quiet {s : State} (e : Rm16) (h : Quiet s) :
    execCallEv e s = .next (((e.seen s).pushed s.ip).setIp (e.value s)) := by
  rw [execCallEv, readRm16_quiet e h, thenWith_next, push16_quiet _ (quiet_seen16 e h), thenDo_next, Rm16.seen_ip]

/-- CALL Mp reads its target before the pushes (R498). -/
theorem execCallMp_quiet {s : State} (m : MemOp) (h : Quiet s) :
    execCallMp m s = .next (((((m.farSeen s).pushed (s.sreg .cs)).pushed s.ip).setSReg .cs (m.farSegment s)).setIp (m.farOffset s)) := by
  rw [execCallMp, readFar_quiet m h, thenWith_next, callFar_quiet _ _ (quiet_farSeen m h), MemOp.sreg_farSeen, MemOp.farSeen_ip]

/-- Settles O48: the direct calls push and go, the indirect ones after one read. -/
theorem callsComplete : Obligations.CallsComplete := by
  unfold Obligations.CallsComplete
  intro s hs
  exact ⟨fun rel => execCallRel16_quiet rel hs, fun off sg => callFar_quiet off sg hs, fun e => execCallEv_quiet e hs,
    fun m => execCallMp_quiet m hs⟩

/-! ### Returns (R500-R503) -/

theorem returnNear_quiet {s : State} (n : Word) (h : Quiet s) : returnNear n s = .next (release n (s.popped.setIp s.top)) :=
  thenWith_of_next (pop16_quiet h) _

theorem returnFar_quiet {s : State} (n : Word) (h : Quiet s) :
    returnFar n s = .next (release n ((s.popped.setIp s.top).popped.setSReg .cs (s.popped.setIp s.top).top)) := by
  rw [returnFar, pop16_quiet h, thenWith_next, pop16_quiet (quiet_setIp.2 (quiet_popped h)), thenWith_next]

/-- RET and RETF release no bytes. -/
theorem release_zero (s : State) : release 0 s = s := by
  rw [release, add_zero, setReg_reg_self]

/-- Settles O49: the forms with an immediate by `returnNear_quiet` and `returnFar_quiet`, the others as their release of 0 bytes. -/
theorem returnsComplete : Obligations.ReturnsComplete := by
  unfold Obligations.ReturnsComplete
  intro s hs near far
  have near_sp : near.reg .sp = s.reg .sp + 2 := reg_popped_sp s
  have far_sp : far.reg .sp = s.reg .sp + 4 :=
    calc far.reg .sp = near.reg .sp + 2 := reg_popped_sp near
      _ = s.reg .sp + 4 := by rw [near_sp, BitVec.add_assoc]; rfl
  have ret : exec .ret s = .next (release 0 near) := returnNear_quiet 0 hs
  have retf : exec .retf s = .next (release 0 far) := returnFar_quiet 0 hs
  rw [release_zero] at ret retf
  exact ⟨ret, fun n => returnNear_quiet n hs, retf, fun n => returnFar_quiet n hs, near_sp, far_sp⟩

end Sys2Proof.Machine
end

section
/-! SUPPORT. Interrupts and processor control under the quiet host (47_system.md R520-R523, R530-R546; 60_exceptions.md R580-R585): the frame
an interrupt leaves on the stack, what a return takes from it, and the instructions that write one flag or none. -/

namespace Sys2Proof.Machine

/-! ### Words of the stack (41_data_transfer.md R250, R251) -/

/-- The word of the stack `k` bytes above SP. -/
def State.stackWord (s : State) (k : Word) : Word := s.wordAt (s.sreg .ss) (s.reg .sp + k)

theorem State.stackWord_zero (s : State) : s.stackWord 0 = s.top := by
  rw [State.stackWord, add_zero, State.top]

theorem memory_wf_pushed {s : State} (v : Word) (h : Memory.wf s.mem = true) : Memory.wf (s.pushed v).mem = true :=
  State.memory_wf_storeWord _ _ _ v h

theorem stackWord_pushed_zero (s : State) (v : Word) (h : Memory.wf s.mem = true) : (s.pushed v).stackWord 0 = v :=
  (State.stackWord_zero _).trans (top_pushed s v h)

theorem lin_mem_wordAddrs {seg a off : Word} : lin seg a ∈ wordAddrs seg off ↔ a = off ∨ a = off + 1 := by
  rw [wordAddrs, List.mem_pair, lin_inj, lin_inj]

/-- A push leaves the words above it, up to those that the wrap of the segment makes share a byte with the word pushed. -/
theorem stackWord_pushed_add_two (s : State) (v : Word) {k : Word} (h : k ≤ 0xFFFC) : (s.pushed v).stackWord (k + 2) = s.stackWord k := by
  have offset : s.reg .sp - 2 + (k + 2) = s.reg .sp + k := by bv_omega
  rw [State.stackWord, State.sreg_pushed, reg_pushed_sp, offset]
  refine State.wordAt_storeWord_ne _ _ _ _ _ v ?_ ?_ <;> rw [lin_mem_wordAddrs] <;> bv_omega

theorem stackWord_popped (s : State) (k : Word) : s.popped.stackWord k = s.stackWord (2 + k) := by
  rw [State.stackWord, State.wordAt_popped, State.sreg_popped, reg_popped_sp, BitVec.add_assoc, State.stackWord]

theorem top_popped (s : State) : s.popped.top = s.stackWord 2 := by rw [← State.stackWord_zero, stackWord_popped]; rfl

/-! ### The state the host is called in (60_exceptions.md R580, R602) -/

/-- What any dispatch writes. -/
def dispatchFootprint : Footprint :=
  { dests := [.word .sp], flags := [.TF, .IF], segs := [.cs], jumps := true, dispatches := true }

theorem frame_dispatchFootprint (s : State) (n : Byte) : Frame dispatchFootprint s (s.presented n) :=
  frame_presented ⟨by decide, by decide, by decide, by decide, rfl, rfl⟩ s n

theorem reg_presented_ne (s : State) (n : Byte) {k : Reg16} (h : k ≠ .sp) : (s.presented n).reg k = s.reg k :=
  (frame_dispatchFootprint s n).reg k (List.forall_mem_singleton.2 h.symm)

theorem sreg_presented_ne (s : State) (n : Byte) {k : SReg} (h : k ≠ .cs) : (s.presented n).sreg k = s.sreg k :=
  (frame_dispatchFootprint s n).sreg k (mt List.mem_singleton.1 h)

theorem reg_presented_sp (s : State) (n : Byte) : (s.presented n).reg .sp = s.reg .sp - 6 := by
  show (s.framed n).reg .sp = _
  rw [State.framed, State.reg_checkedFar, State.reg_setFlag, State.reg_setFlag, reg_pushed_sp, reg_pushed_sp, reg_pushed_sp]
  bv_omega

/-- TF and IF are clear, and the other bits of FLAGS are as they were. -/
theorem getLsbD_flags_presented (s : State) (n : Byte) (m : Nat) :
    (s.presented n).flags.getLsbD m = if m = Flag.IF.bit ∨ m = Flag.TF.bit then false else s.flags.getLsbD m := by
  have flags : (s.presented n).flags = putFlag .IF false (putFlag .TF false s.flags) := by simp [State.presented, State.framed]
  rw [flags, getLsbD_putFlag, getLsbD_putFlag, ite_or]

/-- CS:IP is what the vector's entry holds once the frame is on the stack, which may lie over the entry. -/
theorem presented_entry (s : State) (n : Byte) :
    let t := s.presented n
    t.ip = t.wordAt 0 (4 * n.setWidth 16) ∧ t.sreg .cs = t.wordAt 0 (4 * n.setWidth 16 + 2) ∧ t.runState = .interrupted := by
  have offset : vectorOffset n = 4 * n.setWidth 16 := mul_comm _ _
  rw [← offset, State.presented]
  generalize s.framed n = t
  exact ⟨rfl, rfl, rfl⟩

/-- The three words at the top of the stack: IP, CS and FLAGS as they were. -/
theorem stackWord_presented (s : State) (n : Byte) (h : Memory.wf s.mem = true) :
    (s.presented n).stackWord 0 = s.ip ∧ (s.presented n).stackWord 2 = s.sreg .cs ∧ (s.presented n).stackWord 4 = s.flags := by
  generalize h1 : s.pushed s.flags16 = s1
  generalize h2 : s1.pushed (s.sreg .cs) = s2
  have wf1 : Memory.wf s1.mem = true := h1 ▸ memory_wf_pushed _ h
  have wf2 : Memory.wf s2.mem = true := h2 ▸ memory_wf_pushed _ wf1
  have pushes (k : Word) : (s.presented n).stackWord k = (s2.pushed s.ip).stackWord k := by
    simp [State.presented, State.framed, State.stackWord, h1, h2]
  have flags : s1.stackWord 0 = s.flags := h1 ▸ stackWord_pushed_zero s s.flags16 h
  have cs : s2.stackWord 0 = s.sreg .cs := h2 ▸ stackWord_pushed_zero s1 _ wf1
  have flags2 : s2.stackWord (0 + 2) = s.flags := h2 ▸ (stackWord_pushed_add_two s1 _ (by decide)).trans flags
  refine ⟨(pushes 0).trans (stackWord_pushed_zero s2 _ wf2), (pushes 2).trans ?_, (pushes 4).trans ?_⟩
  · exact (stackWord_pushed_add_two s2 _ (k := 0) (by decide)).trans cs
  · exact (stackWord_pushed_add_two s2 _ (k := 2) (by decide)).trans flags2

theorem wordAt_presented (s : State) (n : Byte) {off k : Word} (h : s.reg .sp - 6 + k = off) :
    (s.presented n).wordAt (s.sreg .ss) off = (s.presented n).stackWord k := by
  rw [State.stackWord, sreg_presented_ne s n (by decide), reg_presented_sp, h]

/-! ### The state after the call of a quiet host (60_exceptions.md R582) -/

theorem reg_dispatched (s : State) (n : Byte) (k : Reg16) : (s.dispatched n).reg k = (s.presented n).reg k := by
  rw [State.dispatched, State.reg_setRunState, State.reg_told]

theorem sreg_dispatched (s : State) (n : Byte) (k : SReg) : (s.dispatched n).sreg k = (s.presented n).sreg k := by
  rw [State.dispatched, State.sreg_setRunState, State.sreg_told]

theorem peek_dispatched (s : State) (n : Byte) (a : Addr) : (s.dispatched n).peek a = (s.presented n).peek a := by
  rw [State.dispatched, State.peek_setRunState, State.peek_told]

theorem stackWord_dispatched (s : State) (n : Byte) (k : Word) : (s.dispatched n).stackWord k = (s.presented n).stackWord k := by
  rw [State.stackWord, reg_dispatched, sreg_dispatched, State.dispatched, State.wordAt_setRunState, State.wordAt_told, State.stackWord]

/-- The quiet host leaves the state it is called in, but for the record of the call; the run state is Idle again. -/
theorem dispatched_keeps (s : State) (n : Byte) :
    let t := s.presented n
    let u := s.dispatched n
    u.regs = t.regs ∧ u.sregs = t.sregs ∧ u.ip = t.ip ∧ u.flags = t.flags ∧ u.mem = t.mem ∧ u.calls = .interrupt n :: t.calls ∧
      u.runState = .idle := by
  rw [State.dispatched]
  generalize s.presented n = t
  exact ⟨rfl, rfl, rfl, rfl, rfl, rfl, rfl⟩

/-! ### INT, INT3, INTO (R520-R522) -/

/-- Each of the three that raises vector `n` is that interrupt. -/
theorem exec_softwareInterrupt {s : State} {i : Instr} {n : Byte}
    (h : i = .intIb n ∨ (i = .int3 ∧ n = 3) ∨ (i = .into ∧ n = 4 ∧ s.flag .OF = true)) : exec i s = interrupt n s := by
  obtain rfl | ⟨rfl, rfl⟩ | ⟨rfl, rfl, hof⟩ := h
  · rfl
  · rfl
  · exact if_pos hof

/-- Settles O51: the instruction is `interrupt`, which calls the host in `presented`: its stack by `stackWord_presented`, what it leaves alone
by its frames. -/
theorem softwareInterruptsDispatch : Obligations.SoftwareInterruptsDispatch := by
  unfold Obligations.SoftwareInterruptsDispatch
  intro s i n hs hi hm
  have raise : exec i s = interrupt n s := exec_softwareInterrupt hi
  obtain ⟨newIp, newCs, runState⟩ := presented_entry s n
  obtain ⟨ip, cs, flags⟩ := stackWord_presented s n hm
  refine ⟨⟨s.presented n, rfl, reg_presented_sp s n, fun _ => reg_presented_ne s n, (wordAt_presented s n ?_).trans flags,
    (wordAt_presented s n ?_).trans cs, (wordAt_presented s n ?_).trans ip,
    fun a ha => (peek_dispatched s n a).symm.trans ((storedOnly_dispatched s n).peek a ha), ?_, ?_, fun m ht hf => ?_,
    newIp, newCs, fun _ => sreg_presented_ne s n, runState, raise.trans (interrupt_calls n hs),
    fun hq => ⟨_, raise.trans (interrupt_quiet n hs hq), rfl, dispatched_keeps s n⟩⟩,
    fun u hu => if_neg (Bool.eq_false_iff.1 hu)⟩
  · bv_omega
  · bv_omega
  · bv_omega
  · exact (getLsbD_flags_presented s n _).trans (if_pos (.inr rfl))
  · exact (getLsbD_flags_presented s n _).trans (if_pos (.inl rfl))
  · exact (getLsbD_flags_presented s n m).trans (if_neg (not_or.2 ⟨hf, ht⟩))

/-! ### IRET (R523; 60_exceptions.md R585) -/

/-- The state after a return from an interrupt under the quiet host. -/
def State.returned (s : State) : State :=
  let t := s.popped.setIp s.top
  let u := t.popped.setSReg .cs t.top
  u.popped.setFlags16 u.top

theorem execIret_quiet {s : State} (h : Quiet s) : execIret s = .next s.returned := returnFromInterrupt_quiet h

/-- Settles O52: IRET is `returnFromInterrupt`. -/
theorem iretCompletes : Obligations.IretCompletes := by
  unfold Obligations.IretCompletes
  exact fun _ hs => execIret_quiet hs

theorem returned_ip (s : State) : s.returned.ip = s.stackWord 0 := by
  simp only [State.returned, State.setFlags16_ip, State.popped_ip, State.setSReg_ip]
  exact s.stackWord_zero.symm

theorem sreg_returned_cs (s : State) : s.returned.sreg .cs = s.stackWord 2 := by
  simp only [State.returned, State.sreg_setFlags16, State.sreg_popped, State.sreg_setSReg_self]
  exact top_popped s

theorem sreg_returned_ne (s : State) {k : SReg} (h : k ≠ .cs) : s.returned.sreg k = s.sreg k := by
  simp only [State.returned, State.sreg_setFlags16, State.sreg_popped, State.sreg_setSReg_ne _ _ h, State.sreg_setIp]

theorem returned_flags (s : State) : s.returned.flags = maskFlags (s.stackWord 4) :=
  have word4 : (s.popped.setIp s.top).popped.top = s.stackWord 4 :=
    (top_popped (s.popped.setIp s.top)).trans (stackWord_popped s 2)
  congrArg maskFlags word4

theorem reg_returned_sp (s : State) : s.returned.reg .sp = s.reg .sp + 6 := by
  simp only [State.returned, State.reg_setFlags16, State.reg_setSReg, State.reg_setIp, reg_popped_sp]
  bv_omega

theorem reg_returned_ne (s : State) {k : Reg16} (h : k ≠ .sp) : s.returned.reg k = s.reg k := by
  simp only [State.returned, State.reg_setFlags16, State.reg_setSReg, State.reg_setIp, reg_popped_ne _ h]

theorem SegRegs.ext_get {g g' : SegRegs} (h : ∀ k, g.get k = g'.get k) : g = g' := by
  cases g
  cases g'
  exact SegRegs.mk.injEq .. |>.mpr ⟨h .es, h .cs, h .ss, h .ds⟩

/-- Settles O53: the frame `stackWord_presented` describes is what the return pops, and neither of
the two writes any register but SP, CS and IP. -/
theorem iretUndoesInterrupt : Obligations.IretUndoesInterrupt := by
  unfold Obligations.IretUndoesInterrupt
  intro s t n hs hq hm hmask ht
  have dispatched : s.dispatched n = t := Host.Outcome.next.inj ((interrupt_quiet n hs hq).symm.trans ht)
  have quiet : Quiet t := dispatched ▸ quiet_told (.interrupt n) (quiet_presented n hs)
  have reg (k : Reg16) : t.reg k = (s.presented n).reg k := dispatched ▸ reg_dispatched s n k
  have sreg (k : SReg) : t.sreg k = (s.presented n).sreg k := dispatched ▸ sreg_dispatched s n k
  have stack (k : Word) : t.stackWord k = (s.presented n).stackWord k := dispatched ▸ stackWord_dispatched s n k
  obtain ⟨ip, cs, flags⟩ := stackWord_presented s n hm
  refine ⟨t.returned, execIret_quiet quiet, ?_, SegRegs.ext_get fun k => ?_, ?_, Regs.ext_get fun k => ?_⟩
  · rw [returned_ip, stack, ip]
  · show t.returned.sreg k = s.sreg k
    by_cases hk : k = .cs
    · rw [hk, sreg_returned_cs, stack, cs]
    · rw [sreg_returned_ne t hk, sreg, sreg_presented_ne s n hk]
  · rw [returned_flags, stack, flags, hmask]
  · show t.returned.reg k = s.reg k
    by_cases hk : k = .sp
    · rw [hk, reg_returned_sp, reg, reg_presented_sp, BitVec.sub_add_cancel]
    · rw [reg_returned_ne t hk, reg, reg_presented_ne s n hk]

/-! ### HLT, the flag instructions, WAIT, ESC (R530-R546) -/

/-- Settles O54: HLT is `haltCall`, and under any host ends Halted; each other instruction is its one update. -/
theorem processorControlCompletes : Obligations.ProcessorControlCompletes := by
  unfold Obligations.ProcessorControlCompletes
  intro s
  have quietHalt (hs : Quiet s) : exec .hlt s = .next ((s.told .halt).setRunState .halted) := by
    rw [exec_hlt, execHlt, haltCall_quiet hs]
  exact ⟨quietHalt, ⟨_, rfl, rfl⟩, rfl, rfl, rfl, rfl, rfl, rfl, rfl, rfl, fun _ _ _ => rfl⟩

end Sys2Proof.Machine
end
